-- ==== Sys2Proof/Word.lean ====
section
/-! DEFINITION. The word types of the block (spec/30_encoding.md R46, R52; spec/10_state.md R11). -/

namespace Sys2Proof

/-- A command word or a response word: 32 bits, bit 0 least significant (R8, R46, R52). -/
abbrev Word := BitVec 32

/-- A codeword register: 10 bits, legal 0..928 (R9, R19). -/
abbrev Codeword := BitVec 10

/-- The `VALUE` field of a response: 24 bits (R52). -/
abbrev Value := BitVec 24

end Sys2Proof
end

