-- ==== Sys2Proof/Config.lean ====
section
/-! DEFINITION. What is fixed for the block: the constants the source settles, the open parameters of
spec/00_scope.md R6 as plain data, and the one free choice (spec/93_implementation_defined.md I6). -/

namespace Sys2Proof

/-- `P`: the modulus (R6). -/
def Config.modulus : Nat := 929

/-- `NLEVELS`: correction levels 0..8 (R6). -/
def Config.numLevels : Nat := 9

/-- `K(l) = 2 << l`: the number of correction codewords of level `l` (R6, R17). -/
def Config.corrections (l : Nat) : Nat := 2 <<< l

/-- `KMAX` (R6). -/
def Config.kMax : Nat := 512

/-- `TXT_BASE` (R6). -/
def Config.textBase : Nat := 30

/-- `TXT_PAD`: the punctuation-shift code that completes an odd pair (R6, R67). -/
def Config.textPad : Nat := 29

/-- `B900_GROUP`: bytes of a full group (R6, R71). -/
def Config.groupBytes : Nat := 6

/-- `B900_GROUP`: codewords of a full group (R6, R72). -/
def Config.groupCodewords : Nat := 5

/-- The base of a packed group (R72). -/
def Config.groupBase : Nat := 900

/-- One entry of the latency table: the command with this opcode, at this `RS_K`, takes
`1 + extra` cycles (R142). Only `RS_INIT` and `RS_FEED` may depend on `RS_K`: every other opcode is
looked up at `k = 0`. -/
structure LatencyRow where
  opcode : BitVec 8
  k : Nat
  extra : Nat
deriving DecidableEq, Repr

/-- The parameters that R6 leaves OPEN, as plain data. The machine takes them as an argument (a constant
field of its state), so a statement about every state is a statement about every value of them. -/
structure Params where
  /-- `COEF(l, j)`: one list of coefficients per level 0..8, entry `j` is the source's `a[j]` (R20). -/
  coef : Vector (List Codeword) 9
  /-- `COEF_PRESENT(l)` for levels 0..8 (R6, R81). -/
  present : Vector Bool 9
  /-- `MODE_SHIFT_BYTE` (R74). -/
  modeShiftByte : Codeword
  /-- `MODE_BYTE` (R74). -/
  modeByte : Codeword
  /-- `MODE_BYTE6` (R74). -/
  modeByte6 : Codeword
  /-- `LAT(op)` beyond its first cycle; an unlisted command takes one cycle (R142). -/
  latency : List LatencyRow
deriving DecidableEq, Repr

/-- R144 and I6: which of the words offered during one wait is accepted, when the host changed
`cmd_data`. Free: nothing constrains it. It is applied to a counter in the state. -/
opaque Config.offeredChoice : Nat → Nat

end Sys2Proof
end

