-- ==== Sys2Proof/Syntax.lean ====
section
/-! DEFINITION. The commands of the block (spec/30_encoding.md R47, R48) and the assembler's
pseudo-instructions (R55). -/

namespace Sys2Proof

/-- One constructor per row of the opcode table. Operands are unsigned naturals (R48, R8); whether one
fits its sub-field is WellFormed's question. -/
inductive Instr where
  /-- `NOP`, opcode 0x00. -/
  | nop
  /-- `SRST`, opcode 0x01. -/
  | srst
  /-- `RDREG idx`, opcode 0x02, `idx = w[7:0]`. -/
  | rdreg (idx : Nat)
  /-- `TXT_PUSH v`, opcode 0x10, `v = w[4:0]`. -/
  | txtPush (v : Nat)
  /-- `TXT_FLUSH`, opcode 0x11. -/
  | txtFlush
  /-- `B900_PUSH b`, opcode 0x20, `b = w[7:0]`. -/
  | b900Push (b : Nat)
  /-- `B900_FLUSH`, opcode 0x21. -/
  | b900Flush
  /-- `B900_MODE len`, opcode 0x22, `len = w[23:0]`. -/
  | b900Mode (len : Nat)
  /-- `RS_INIT lvl`, opcode 0x30, `lvl = w[3:0]`. -/
  | rsInit (lvl : Nat)
  /-- `RS_FEED d`, opcode 0x31, `d = w[9:0]`. -/
  | rsFeed (d : Nat)
  /-- `RS_RDOUT i`, opcode 0x32, `i = w[8:0]`. -/
  | rsRdout (i : Nat)
deriving DecidableEq, Repr

/-- The assembler's pseudo-instructions (R55). The block never sees them. -/
inductive Pseudo where
  /-- `RDSTAT` -/
  | rdstat
  /-- `TXT_PAIR a, b` -/
  | txtPair (a b : Nat)
  /-- `B900_GROUP b0, b1, b2, b3, b4, b5` -/
  | b900Group (b0 b1 b2 b3 b4 b5 : Nat)
  /-- `B900_READ n`, n in 1..5 -/
  | b900Read (n : Nat)
  /-- `RS_READALL l` -/
  | rsReadall (l : Nat)
deriving DecidableEq, Repr

end Sys2Proof
end

