-- ==== Sys2Proof/WellFormed.lean ====
section
/-! DEFINITION. Which commands can be encoded: the operand fits the sub-field of spec/30_encoding.md R48.
A value that fits but is out of its legal range is still well formed (R48, R54): the command's own rule
raises the error for it. -/

namespace Sys2Proof

/-- A field of `n` bits holds 0..2^n-1 (R8). -/
abbrev fitsField (n v : Nat) : Prop := v < 2 ^ n

/-- The assembler's width check, one case per command (R48, R54). -/
def Instr.wellFormed : Instr → Bool
  | .nop => true
  | .srst => true
  | .rdreg idx => decide (fitsField 8 idx)
  | .txtPush v => decide (fitsField 5 v)
  | .txtFlush => true
  | .b900Push b => decide (fitsField 8 b)
  | .b900Flush => true
  | .b900Mode len => decide (fitsField 24 len)
  | .rsInit lvl => decide (fitsField 4 lvl)
  | .rsFeed d => decide (fitsField 10 d)
  | .rsRdout i => decide (fitsField 9 i)

/-- The check as a proposition. -/
abbrev Instr.WellFormed (i : Instr) : Prop := i.wellFormed = true

end Sys2Proof
end

