-- ==== Sys2Proof/Decode.lean ====
section
/-! DEFINITION. Decoding of command words (spec/30_encoding.md R46 to R51, R56) and, after it, encoding. -/

namespace Sys2Proof

/-- One row of R49: the word is this command if `w AND mask = pattern`. -/
structure EncRow where
  mnemonic : String
  pattern : Word
  mask : Word
deriving DecidableEq, Repr

def rowNop : EncRow := ⟨"NOP", 0x00000000#32, 0xFFFFFFFF#32⟩
def rowSrst : EncRow := ⟨"SRST", 0x01000000#32, 0xFFFFFFFF#32⟩
def rowRdreg : EncRow := ⟨"RDREG", 0x02000000#32, 0xFFFFFF00#32⟩
def rowTxtPush : EncRow := ⟨"TXT_PUSH", 0x10000000#32, 0xFFFFFFE0#32⟩
def rowTxtFlush : EncRow := ⟨"TXT_FLUSH", 0x11000000#32, 0xFFFFFFFF#32⟩
def rowB900Push : EncRow := ⟨"B900_PUSH", 0x20000000#32, 0xFFFFFF00#32⟩
def rowB900Flush : EncRow := ⟨"B900_FLUSH", 0x21000000#32, 0xFFFFFFFF#32⟩
def rowB900Mode : EncRow := ⟨"B900_MODE", 0x22000000#32, 0xFF000000#32⟩
def rowRsInit : EncRow := ⟨"RS_INIT", 0x30000000#32, 0xFFFFFFF0#32⟩
def rowRsFeed : EncRow := ⟨"RS_FEED", 0x31000000#32, 0xFFFFFC00#32⟩
def rowRsRdout : EncRow := ⟨"RS_RDOUT", 0x32000000#32, 0xFFFFFE00#32⟩

/-- The table of R49, in the spec's order. -/
def encTable : List EncRow :=
  [rowNop, rowSrst, rowRdreg, rowTxtPush, rowTxtFlush, rowB900Push, rowB900Flush, rowB900Mode,
   rowRsInit, rowRsFeed, rowRsRdout]

/-- The test of R49. -/
def EncRow.hits (r : EncRow) (w : Word) : Bool := w &&& r.mask == r.pattern

/-- The operand `w[n-1:0]` as an unsigned natural (R48, R56). -/
def operandField (n : Nat) (w : Word) : Nat := (w.extractLsb' 0 n).toNat

/-- The opcode `w[31:24]` (R46). -/
def opcodeOf (w : Word) : BitVec 8 := w.extractLsb' 24 8

/-- The opcodes R47 assigns. -/
def assignedOpcodes : List (BitVec 8) :=
  [0x00, 0x01, 0x02, 0x10, 0x11, 0x20, 0x21, 0x22, 0x30, 0x31, 0x32]

/-- Why a word is illegal: the two reasons R50 gives. -/
inductive Illegal where
  /-- The opcode is not in R47. -/
  | unassignedOpcode
  /-- The opcode is assigned, and a reserved bit of R48 is 1. -/
  | reservedBitSet
deriving DecidableEq, Repr

/-- What a word decodes to (R117: a mnemonic with its operand, or illegal). -/
inductive Decoded where
  | command (i : Instr)
  | illegal (why : Illegal)
deriving DecidableEq, Repr

/-- R49, total on all 2^32 words (R50 for the words no row matches). -/
def decode (w : Word) : Decoded :=
  if rowNop.hits w then .command .nop
  else if rowSrst.hits w then .command .srst
  else if rowRdreg.hits w then .command (.rdreg (operandField 8 w))
  else if rowTxtPush.hits w then .command (.txtPush (operandField 5 w))
  else if rowTxtFlush.hits w then .command .txtFlush
  else if rowB900Push.hits w then .command (.b900Push (operandField 8 w))
  else if rowB900Flush.hits w then .command .b900Flush
  else if rowB900Mode.hits w then .command (.b900Mode (operandField 24 w))
  else if rowRsInit.hits w then .command (.rsInit (operandField 4 w))
  else if rowRsFeed.hits w then .command (.rsFeed (operandField 10 w))
  else if rowRsRdout.hits w then .command (.rsRdout (operandField 9 w))
  else if assignedOpcodes.contains (opcodeOf w) then .illegal .reservedBitSet
  else .illegal .unassignedOpcode

/-- The instruction of a decoded word, none where it is illegal. -/
def Decoded.toInstr? : Decoded → Option Instr
  | .command i => some i
  | .illegal _ => none

/-- The decoder as the opcode table numbers a word: every row is one 32-bit word, bit 0 its least
significant bit; bits above `nbits` are 0. -/
def decodeTableWord (nbits w : Nat) : Option Instr :=
  (decode (BitVec.ofNat 32 (w % 2 ^ nbits))).toInstr?

/-- The word of a command: opcode in `w[31:24]` (R47), operand in its low sub-field, reserved bits 0
(R46, R48). -/
def encode : Instr → Word
  | .nop => 0x00#8 ++ 0#24
  | .srst => 0x01#8 ++ 0#24
  | .rdreg idx => 0x02#8 ++ (0#16 ++ BitVec.ofNat 8 idx)
  | .txtPush v => 0x10#8 ++ (0#19 ++ BitVec.ofNat 5 v)
  | .txtFlush => 0x11#8 ++ 0#24
  | .b900Push b => 0x20#8 ++ (0#16 ++ BitVec.ofNat 8 b)
  | .b900Flush => 0x21#8 ++ 0#24
  | .b900Mode len => 0x22#8 ++ BitVec.ofNat 24 len
  | .rsInit lvl => 0x30#8 ++ (0#20 ++ BitVec.ofNat 4 lvl)
  | .rsFeed d => 0x31#8 ++ (0#14 ++ BitVec.ofNat 10 d)
  | .rsRdout i => 0x32#8 ++ (0#15 ++ BitVec.ofNat 9 i)

/-- The row of R49 a command belongs to. -/
def Instr.row : Instr → EncRow
  | .nop => rowNop
  | .srst => rowSrst
  | .rdreg _ => rowRdreg
  | .txtPush _ => rowTxtPush
  | .txtFlush => rowTxtFlush
  | .b900Push _ => rowB900Push
  | .b900Flush => rowB900Flush
  | .b900Mode _ => rowB900Mode
  | .rsInit _ => rowRsInit
  | .rsFeed _ => rowRsFeed
  | .rsRdout _ => rowRsRdout

/-- The assembler's result: no word for an operand that does not fit its sub-field (R54). -/
def assemble (i : Instr) : Option Word :=
  if i.wellFormed then some (encode i) else none

end Sys2Proof
end

