-- ==== Sys2Proof/Machine/State.lean ====
section
/-! DEFINITION. The state of the block as plain data: the record of spec/10_state.md R11, the command port of
spec/20_memory.md R32 and R33, and the bookkeeping a run needs (R12, R146). -/

namespace Sys2Proof.Machine

/-- The errors a command can raise (R116). An error is a value of `ERR` in a NEXT state: it never stops the
machine. -/
inductive ErrorCode where
  /-- Code 1: unassigned opcode, or a reserved operand bit set (R50). -/
  | illegalCommand
  /-- Code 2: `RS_INIT` with a level 9..15 or a level without a table (R81). -/
  | unsupportedCorrectionLevel
  /-- Code 3: an operand outside its legal range (R63, R66, R82, R83). -/
  | operandRange
  /-- Code 4: `RS_FEED` or `RS_RDOUT` while `RS_VALID = 0` (R82, R83). -/
  | sequenceError
deriving DecidableEq, Repr

/-- The RS unit's state (R15 to R19). -/
structure RsUnit where
  /-- `RS_VALID`: a level has been selected since reset (R15). -/
  valid : Bool
  /-- `RS_LEVEL`, 0..8 (R16). -/
  level : BitVec 4
  /-- `RS_DCNT`: codewords absorbed, modulo 2^16 (R18). -/
  dcnt : BitVec 16
  /-- `C[0..511]`: the accumulator, each entry 0..928 (R19). -/
  acc : Vector Codeword 512
deriving DecidableEq, Repr

/-- The base-30 unit's state (R21, R22). -/
structure Base30Unit where
  /-- `T_PEND`: the first value of a pair is held (R21). -/
  pend : Bool
  /-- `T_HI`: that value, 0 when none is held (R22). -/
  hi : BitVec 5
deriving DecidableEq, Repr

/-- The base-900 unit's state (R23 to R26). -/
structure Base900Unit where
  /-- `B_N`: bytes of the incomplete group, 0..5 (R23). -/
  n : BitVec 3
  /-- `B_ACC`: their big-integer accumulation, most significant byte first (R24). -/
  acc : BitVec 48
  /-- `B_OUTN`: valid entries of `B_OUT`, 0..5 (R25). -/
  outN : BitVec 3
  /-- `B_OUT[0..4]`: the result registers (R26). -/
  out : Vector Codeword 5
deriving DecidableEq, Repr

/-- R137: no level chosen, accumulator zero. -/
def RsUnit.reset : RsUnit := ⟨false, 0, 0, Vector.replicate 512 0⟩

/-- R137: no pending value. -/
def Base30Unit.reset : Base30Unit := ⟨false, 0⟩

/-- R137: no partial group, no results. -/
def Base900Unit.reset : Base900Unit := ⟨0, 0, 0, Vector.replicate 5 0⟩

/-- Where the command port stands (R32, R33): at most one command is in flight, and none is accepted until
its response has been taken. -/
inductive Phase where
  /-- `cmd_ready = 1`: no command in flight. -/
  | idle
  /-- Command `w` was accepted; `left` rising edges remain until its response is ready (R33, R142). -/
  | busy (w : Word) (left : Nat)
  /-- `rsp_valid = 1`: the response `r` is ready and not yet taken. -/
  | done (r : Word)
deriving DecidableEq, Repr

/-- The command port's registers. -/
structure Port where
  phase : Phase
  /-- The words offered on `cmd_data` since `cmd_valid` last rose without an acceptance, oldest first
  (R144, I6). Only the signal layer of Port.lean fills it. -/
  offered : List Word
deriving DecidableEq, Repr

/-- No command in flight and none offered (R136). -/
def Port.reset : Port := ⟨.idle, []⟩

/-- What the host does next at the port, one transaction at a time. In a transaction the host takes the
response as soon as it is ready (assumption 1). -/
inductive HostEvent where
  /-- The host offers `w` until it is accepted (R32). -/
  | command (w : Word)
  /-- The host offers `w` and changes `cmd_data` to the words `later` before one is accepted (R144, I6). -/
  | unstable (w : Word) (later : List Word)
  /-- The host withdraws `cmd_valid` before acceptance (I7). -/
  | withdrawn (w : Word)
  /-- The host asserts `rst_n` (R136). -/
  | hardReset
deriving DecidableEq, Repr

/-- The whole state. `err`, `rs`, `txt` and `b900` are the architectural record of R11; `port` is the command
port; `index` and `observed` are the run's bookkeeping (R12, R146); `line`, `freeCount` and `params` are the
model's own (assumptions 1, 7 and 3 to 6). -/
structure State where
  /-- `ERR`: sticky error register (R14). -/
  err : BitVec 4
  rs : RsUnit
  txt : Base30Unit
  b900 : Base900Unit
  port : Port
  /-- The index of the next command in the host's sequence (R12). -/
  index : Nat
  /-- The responses the host has taken, oldest first: the observation of the run (R10, R146). -/
  observed : List Word
  /-- What the host does next, in order. -/
  line : List HostEvent
  /-- Advances with every free choice (I6). -/
  freeCount : Nat
  /-- The open parameters (R6): no step changes them (R41, R138). -/
  params : Params
deriving DecidableEq, Repr

/-- What stops the machine: nothing. The spec gives every command word in every state a next state and a
response (R10, R117), so no meaning can raise a fault and the type has no constructor. Safe: a proof that a
step is no fault needs no hypothesis because there is no fault to exclude, and none is left out
(assumption 10). -/
inductive Fault where
deriving DecidableEq, Repr

/-- What the model refuses. -/
inductive Refusal where
  /-- Raised only by an arm of exec whose instruction has no meaning yet; no arm does. Safe: nothing can be
  proved of a refused instruction's effect. -/
  | notModelled (mnemonic : String)
deriving DecidableEq, Repr

/-- The outcome of a step of this machine. -/
abbrev Result := Host.Outcome State Fault Refusal

/-- The machine right after reset: the table of R137, the port idle (R136), no command executed and no
response taken, and the default parameters (assumptions 3 to 6). -/
def State.reset : State where
  err := 0
  rs := RsUnit.reset
  txt := Base30Unit.reset
  b900 := Base900Unit.reset
  port := Port.reset
  index := 0
  observed := []
  line := []
  freeCount := 0
  params := defaultParams

end Sys2Proof.Machine
end

