-- ==== Sys2Proof/Machine/Flags.lean ====
section
/-! DEFINITION. Error codes (spec/60_exceptions.md R116), the STATUS layout (spec/10_state.md R28) and the
response word with its ERRF and VALID indications (spec/30_encoding.md R52). The block has no other flags
(R29). -/

namespace Sys2Proof.Machine

/-- R116. -/
def ErrorCode.code : ErrorCode → BitVec 4
  | .illegalCommand => 1
  | .unsupportedCorrectionLevel => 2
  | .operandRange => 3
  | .sequenceError => 4

/-- `ERRF`: an error is latched (R52). -/
def errFlag (err : BitVec 4) : Bool := err != 0

/-- R52: the response word for `ERR` as it stands after the command. -/
def responseWord (err : BitVec 4) (valid : Bool) (value : Value) : Word :=
  BitVec.ofBool (errFlag err) ++ (BitVec.ofBool valid ++ (0#2 ++ (err ++ (if valid then value else 0#24))))

/-- R28: `zext_24(RS_LEVEL ++ B_OUTN ++ B_N ++ T_PEND ++ RS_VALID ++ ERR)`. -/
def statusWord (s : State) : Value :=
  0#8 ++ (s.rs.level ++ (s.b900.outN ++ (s.b900.n ++ (BitVec.ofBool s.txt.pend ++
    (BitVec.ofBool s.rs.valid ++ s.err)))))

/-- The `ERRF` bit of a response (R52). -/
def responseErrf (r : Word) : Bool := r.getLsbD 31

/-- The `VALID` bit of a response (R52). -/
def responseValid (r : Word) : Bool := r.getLsbD 30

/-- The `VALUE` field of a response (R52). -/
def responseValue (r : Word) : Value := r.extractLsb' 0 24

end Sys2Proof.Machine
end

