-- ==== Sys2Proof/Machine/Operands.lean ====
section
/-! DEFINITION. Operand ranges (spec/30_encoding.md R48), the derived `RS_K` (spec/10_state.md R17), the
parameters as functions (spec/00_scope.md R6) and the RDREG register map (spec/10_state.md R27). -/

namespace Sys2Proof.Machine

/-- Entry `j` of a register array. The spec's rules read only entries that exist; 0 stands outside them
(assumption 9). -/
def entryAt {n : Nat} (xs : Vector Codeword n) (j : Nat) : Codeword := xs[j]?.getD 0

/-- `RS_K = 2 << RS_LEVEL` (R17). -/
def RsUnit.k (u : RsUnit) : Nat := Config.corrections u.level.toNat

/-- `COEF(l, j)` (R6, R20); 0 outside the table (assumption 9). -/
def coefAt (p : Params) (l j : Nat) : Codeword := ((p.coef[l]?.getD [])[j]?).getD 0

/-- `COEF_PRESENT(l)`; no table outside 0..8 (R6). -/
def coefPresent (p : Params) (l : Nat) : Bool := p.present[l]?.getD false

/-- `LAT(op)`, at least 1 (R142). `k` is `RS_K` as the command is accepted; only `RS_INIT` and `RS_FEED` may
depend on it. -/
def latency (p : Params) (opcode : BitVec 8) (k : Nat) : Nat :=
  let kKey := if opcode = 0x30 ∨ opcode = 0x31 then k else 0
  1 + ((p.latency.find? (fun row => row.opcode == opcode && row.k == kKey)).map LatencyRow.extra).getD 0

/-- `TXT_PUSH v`: legal 0..29 (R48, R66). -/
def textValueLegal (v : Nat) : Bool := decide (v ≤ 29)

/-- `RS_FEED d`: legal 0..928 (R48, R82). -/
def codewordLegal (d : Nat) : Bool := decide (d ≤ 928)

/-- `RS_INIT lvl`: legal 0..8 with a table present (R48, R81). -/
def levelLegal (p : Params) (lvl : Nat) : Bool := decide (lvl ≤ 8) && coefPresent p lvl

/-- `RS_RDOUT i`: legal 0..RS_K-1 (R48, R83). -/
def outputIndexLegal (u : RsUnit) (i : Nat) : Bool := decide (i < u.k)

/-- `zext_24` of a register (R8). -/
def zext24 {n : Nat} (v : BitVec n) : Value := v.setWidth 24

/-- The register map of R27: the value at an index, none where the index is unmapped. -/
def regmap (s : State) : Nat → Option Value
  | 0x00 => some (statusWord s)
  | 0x01 => some (zext24 s.rs.level)
  | 0x02 => some (BitVec.ofNat 24 s.rs.k)
  | 0x03 => some (zext24 s.rs.dcnt)
  | 0x04 => some (zext24 s.txt.hi)
  | 0x05 => some (s.b900.acc.extractLsb' 0 24)
  | 0x06 => some (s.b900.acc.extractLsb' 24 24)
  | 0x08 => some (zext24 (entryAt s.b900.out 0))
  | 0x09 => some (zext24 (entryAt s.b900.out 1))
  | 0x0A => some (zext24 (entryAt s.b900.out 2))
  | 0x0B => some (zext24 (entryAt s.b900.out 3))
  | 0x0C => some (zext24 (entryAt s.b900.out 4))
  | _ => none

end Sys2Proof.Machine
end

