-- ==== Sys2Proof/Machine/Ops.lean ====
section
/-! DEFINITION. The shared operations: ending a command with its response (spec/30_encoding.md R52), raising
an error (spec/60_exceptions.md R118), refusal (R119), the illegal word (spec/30_encoding.md R50) and reset
(spec/70_reset_and_hazards.md R136 to R139). -/

namespace Sys2Proof.Machine

/-- The state in which a command has ended with `respond(valid, value)`: the response word, made from `ERR` as
it stands, is ready at the port (R52), and the command index has advanced by 1 (R12). -/
def State.answer (s : State) (valid : Bool) (value : Value) : State :=
  { s with
    port := { s.port with phase := .done (responseWord s.err valid value) }
    index := s.index + 1 }

/-- `respond(valid, value)` (R8, R52). -/
def respond (valid : Bool) (value : Value) (s : State) : Result := .next (s.answer valid value)

/-- `raise E` (R118): `ERR <- code(E)`, no other state changes, and the command ends with `respond(0, 0)`.
This is the block's whole exception entry (R121). -/
def raise (e : ErrorCode) (s : State) : Result := respond false 0 { s with err := e.code }

/-- Refusal (R119): a command other than `NOP`, `SRST` and `RDREG` has its own effect only while `ERR = 0`;
otherwise it changes no state and answers `respond(0, 0)`. -/
def unlessRefused (s : State) (run : Result) : Result := if s.err = 0 then run else respond false 0 s

/-- `raise E` while no error is latched, no effect otherwise: the form of an illegal word and of an unmapped
`RDREG` index, which check `ERR` themselves (R50, R63). -/
def raiseIfClear (e : ErrorCode) (s : State) : Result := if s.err = 0 then raise e s else respond false 0 s

/-- An illegal word (R50). -/
def execIllegal (s : State) : Result := raiseIfClear .illegalCommand s

/-- `State <- ResetState` for the architectural record of R11 (R137). The parameters are not part of it
(R138), nor is the port, whose handshake `SRST` leaves alone (R139). -/
def State.toResetState (s : State) : State :=
  { s with err := 0, rs := RsUnit.reset, txt := Base30Unit.reset, b900 := Base900Unit.reset }

/-- Hardware reset (R136): the reset state, and a command accepted or a response not yet taken is discarded.
With `SRST` it is the only way back from an error (R122). -/
def hardReset (s : State) : State := { s.toResetState with port := Port.reset }

end Sys2Proof.Machine
end

