-- ==== Sys2Proof/Machine/Base30.lean ====
section
/-! DEFINITION. The base-30 pairing unit (spec/41_base30.md). -/

namespace Sys2Proof.Machine

/-- The pair's codeword: first value the high digit, second the low digit (R66, R67). -/
def pairCodeword (hi lo : Nat) : Nat := hi * Config.textBase + lo

/-- The unit after it holds the first value of a pair (R66). -/
def Base30Unit.hold (v : Nat) : Base30Unit := ⟨true, BitVec.ofNat 5 v⟩

/-- The unit with no pending value: clearing `T_PEND` also writes 0 to `T_HI` (R22, R66, R67). -/
def Base30Unit.clear : Base30Unit := ⟨false, 0⟩

/-- The pending value completed by `lo`: the codeword is answered and the unit cleared (R66, R67). -/
def completePair (lo : Nat) (s : State) : Result :=
  respond true (BitVec.ofNat 24 (pairCodeword s.txt.hi.toNat lo)) { s with txt := Base30Unit.clear }

/-- `TXT_PUSH v` (R66). -/
def execTxtPush (v : Nat) (s : State) : Result :=
  unlessRefused s <|
    if textValueLegal v then
      if s.txt.pend then completePair v s
      else respond false 0 { s with txt := Base30Unit.hold v }
    else raise .operandRange s

/-- `TXT_FLUSH` (R67). -/
def execTxtFlush (s : State) : Result :=
  unlessRefused s <|
    if s.txt.pend then completePair Config.textPad s else respond false 0 s

end Sys2Proof.Machine
end

