-- ==== Sys2Proof/Machine/Base900.lean ====
section
/-! DEFINITION. The base-900 group unit (spec/42_base900.md). -/

namespace Sys2Proof.Machine

/-- The division loop of R72 with `m` divisions left: each writes the remainder to the last free register and
goes on with the quotient. The spec's `j` is `5 - m`, so `out[4 - j]` is entry `m - 1`. -/
def conv900Loop : Nat → Nat → Vector Codeword 5 → Vector Codeword 5
  | 0, _, out => out
  | m + 1, a, out =>
    conv900Loop m (a / Config.groupBase) (out.setIfInBounds m (BitVec.ofNat 10 (a % Config.groupBase)))

/-- `conv900(A)` (R72): 5 codewords, most significant first. -/
def conv900 (a : Nat) : Vector Codeword 5 := conv900Loop Config.groupCodewords a (Vector.replicate 5 0)

/-- `B_ACC * 256 + b` (R71). -/
def pushedAcc (u : Base900Unit) (b : Nat) : Nat := u.acc.toNat * 256 + b

/-- The unit after a byte that does not complete a group (R71): `B_OUT` and `B_OUTN` unchanged. -/
def Base900Unit.accumulate (u : Base900Unit) (b : Nat) : Base900Unit :=
  { u with acc := BitVec.ofNat 48 (pushedAcc u b), n := BitVec.ofNat 3 (u.n.toNat + 1) }

/-- The unit after the sixth byte of a group (R71). -/
def Base900Unit.convert (u : Base900Unit) (b : Nat) : Base900Unit :=
  { n := 0, acc := 0, outN := 5, out := conv900 (pushedAcc u b) }

/-- `B900_PUSH b` (R71). The test is on the incremented `B_N`. -/
def execB900Push (b : Nat) (s : State) : Result :=
  unlessRefused s <|
    if s.b900.n.toNat + 1 = Config.groupBytes then
      respond true 5 { s with b900 := s.b900.convert b }
    else respond false 0 { s with b900 := s.b900.accumulate b }

/-- Byte `j` of a partial group of `n` bytes: `B_ACC[8*(n-1-j)+7 : 8*(n-1-j)]`; 0 for `j >= n` (R73). -/
def flushEntry (u : Base900Unit) (j : Nat) : Codeword :=
  if j < u.n.toNat then (u.acc.extractLsb' (8 * (u.n.toNat - 1 - j)) 8).setWidth 10 else 0

/-- The unit after a flush (R73). -/
def Base900Unit.flush (u : Base900Unit) : Base900Unit :=
  { n := 0, acc := 0, outN := u.n
    out := #v[flushEntry u 0, flushEntry u 1, flushEntry u 2, flushEntry u 3, flushEntry u 4] }

/-- `B900_FLUSH` (R73). -/
def execB900Flush (s : State) : Result :=
  unlessRefused s <| respond true (zext24 s.b900.n) { s with b900 := s.b900.flush }

/-- The mode indicator for `len` payload bytes (R74). -/
def modeIndicator (p : Params) (len : Nat) : Codeword :=
  if len = 1 then p.modeShiftByte
  else if len % 6 = 0 then p.modeByte6
  else p.modeByte

/-- `B900_MODE len` (R74): no state changes. -/
def execB900Mode (len : Nat) (s : State) : Result :=
  unlessRefused s <| respond true (zext24 (modeIndicator s.params len)) s

end Sys2Proof.Machine
end

