-- ==== Sys2Proof/Machine/Control.lean ====
section
/-! DEFINITION. The control commands (spec/40_control.md). None of them is refused (R119). -/

namespace Sys2Proof.Machine

/-- `NOP` (R61). -/
def execNop (s : State) : Result := respond false 0 s

/-- `SRST` (R62): the reset state of R137, then `respond(0, 0)`, so its response shows `ERR = 0`. -/
def execSrst (s : State) : Result := respond false 0 s.toResetState

/-- `RDREG idx` (R63) over the register map of R27. -/
def execRdreg (idx : Nat) (s : State) : Result :=
  match regmap s idx with
  | some value => respond true value s
  | none => raiseIfClear .operandRange s

end Sys2Proof.Machine
end

