-- ==== Sys2Proof/Machine/RsArith.lean ====
section
/-! DEFINITION. The arithmetic of the RS unit: one reduction step (spec/43_rs.md R84) and the negated read
(R83). -/

namespace Sys2Proof.Machine

/-- `t = (d + c[k-1]) mod 929` (R84). -/
def feedTerm (d top : Nat) : Nat := (d + top) % Config.modulus

/-- `(prev + 929 - ((t * a) mod 929)) mod 929` (R84). -/
def reducedEntry (prev t a : Nat) : Nat := (prev + Config.modulus - (t * a) % Config.modulus) % Config.modulus

/-- `prev` of entry `j`: `c[j-1]`, and 0 for `j = 0` (R84). -/
def prevEntry (acc : Vector Codeword 512) (j : Nat) : Nat :=
  if j = 0 then 0 else (entryAt acc (j - 1)).toNat

/-- The loop of R84 with `j` entries left: it updates entry `j - 1`, then goes down. -/
def rsLoop (coef : Nat → Codeword) (t : Nat) : Nat → Vector Codeword 512 → Vector Codeword 512
  | 0, acc => acc
  | j + 1, acc =>
    rsLoop coef t j
      (acc.setIfInBounds j (BitVec.ofNat 10 (reducedEntry (prevEntry acc j) t (coef j).toNat)))

/-- `rsStep(c[0..k-1], d, l)` (R84) on the whole accumulator: entries from `k` up are not written. -/
def rsStep (p : Params) (l d : Nat) (acc : Vector Codeword 512) : Vector Codeword 512 :=
  let k := Config.corrections l
  rsLoop (coefAt p l) (feedTerm d (entryAt acc (k - 1)).toNat) k acc

/-- `neg929(x)` (R83). -/
def neg929 (x : Codeword) : Codeword :=
  if x = 0 then 0 else BitVec.ofNat 10 (Config.modulus - x.toNat)

/-- Output position `i` of the unit: `c` reversed and negated (R83). -/
def RsUnit.output (u : RsUnit) (i : Nat) : Codeword := neg929 (entryAt u.acc (u.k - 1 - i))

end Sys2Proof.Machine
end

