-- ==== Sys2Proof/Machine/RsUnit.lean ====
section
/-! DEFINITION. The RS commands (spec/43_rs.md R81 to R83). -/

namespace Sys2Proof.Machine

/-- The unit after a successful `RS_INIT` (R81): level chosen, all 512 entries and the counter zero. -/
def RsUnit.start (lvl : Nat) : RsUnit :=
  { valid := true, level := BitVec.ofNat 4 lvl, dcnt := 0, acc := Vector.replicate 512 0 }

/-- The unit after it absorbed `d` (R82); the counter wraps modulo 2^16 (R18). -/
def RsUnit.feed (u : RsUnit) (p : Params) (d : Nat) : RsUnit :=
  { u with acc := rsStep p u.level.toNat d u.acc, dcnt := u.dcnt + 1 }

/-- `RS_INIT lvl` (R81). -/
def execRsInit (lvl : Nat) (s : State) : Result :=
  unlessRefused s <|
    if levelLegal s.params lvl then
      respond true (BitVec.ofNat 24 (Config.corrections lvl)) { s with rs := RsUnit.start lvl }
    else raise .unsupportedCorrectionLevel s

/-- `RS_FEED d` (R82): `SequenceError` before the operand check (R120). -/
def execRsFeed (d : Nat) (s : State) : Result :=
  unlessRefused s <|
    if s.rs.valid then
      if codewordLegal d then respond false 0 { s with rs := s.rs.feed s.params d }
      else raise .operandRange s
    else raise .sequenceError s

/-- `RS_RDOUT i` (R83): `SequenceError` before the operand check (R120). -/
def execRsRdout (i : Nat) (s : State) : Result :=
  unlessRefused s <|
    if s.rs.valid then
      if outputIndexLegal s.rs i then respond true (zext24 (s.rs.output i)) s
      else raise .operandRange s
    else raise .sequenceError s

end Sys2Proof.Machine
end

