-- ==== Sys2Proof/Machine/Dispatch.lean ====
section
/-! DEFINITION. One arm per command: the meaning of each (spec/60_exceptions.md R117). -/

namespace Sys2Proof.Machine

def exec (i : Instr) (s : State) : Host.Outcome State Fault Refusal :=
  match i with
  | .nop => Sys2Proof.Machine.execNop s
  | .srst => Sys2Proof.Machine.execSrst s
  | .rdreg idx => Sys2Proof.Machine.execRdreg idx s
  | .txtPush v => Sys2Proof.Machine.execTxtPush v s
  | .txtFlush => Sys2Proof.Machine.execTxtFlush s
  | .b900Push b => Sys2Proof.Machine.execB900Push b s
  | .b900Flush => Sys2Proof.Machine.execB900Flush s
  | .b900Mode len => Sys2Proof.Machine.execB900Mode len s
  | .rsInit lvl => Sys2Proof.Machine.execRsInit lvl s
  | .rsFeed d => Sys2Proof.Machine.execRsFeed d s
  | .rsRdout pos => Sys2Proof.Machine.execRsRdout pos s

end Sys2Proof.Machine
end

