-- ==== Sys2Proof/Machine/Port.lean ====
section
/-! DEFINITION. The command port: running one command word (spec/60_exceptions.md R117), one transaction of
the host (spec/20_memory.md R33, spec/00_scope.md R10), and the signal layer below it, one rising clock edge
at a time (spec/20_memory.md R32, spec/70_reset_and_hazards.md R136, R142, R144). -/

namespace Sys2Proof.Machine

/-- The dispatch of R117 on a command word. Refusal stands in the commands' own meanings (R119). -/
def runWord (w : Word) (s : State) : Result :=
  match decode w with
  | .command i => exec i s
  | .illegal _ => execIllegal s

/-- The host takes the response that is ready (R32, R33): it joins the observation and the port is idle. -/
def takeResponse (s : State) : State :=
  match s.port.phase with
  | .done r => { s with port := { s.port with phase := .idle }, observed := s.observed ++ [r] }
  | _ => s

/-- The command's outcome, its response taken by the host. -/
def deliver : Result → Result
  | .next s => .next (takeResponse s)
  | .fault r => .fault r
  | .refused r => .refused r

/-- The word accepted at the end of a wait in which `w` and then `later` were offered (R144, I6): `w` where
the host kept it stable; otherwise any one of the words offered, by a free choice. -/
def acceptedWord (w : Word) (later : List Word) (s : State) : Word :=
  if later.all (· == w) then w
  else (w :: later)[Config.offeredChoice s.freeCount % (later.length + 1)]?.getD w

/-- The state after that choice: a choice that was free has used one free value. -/
def afterChoice (w : Word) (later : List Word) (s : State) : State :=
  if later.all (· == w) then s else { s with freeCount := s.freeCount + 1 }

/-- The host's next event at an idle port. -/
def hostEvent (e : HostEvent) (s : State) : Result :=
  match e with
  | .command w => deliver (runWord w s)
  | .unstable w later => deliver (runWord (acceptedWord w later s) (afterChoice w later s))
  | .withdrawn _ => .next s
  | .hardReset => .next (hardReset s)

/-- One transaction. A hardware reset acts whatever the port is doing (R136); a command in flight completes
and its response is taken; a response that is ready is taken; at an idle port the host's next event is
handled, and with none the block holds its state (R128). -/
def transact (s : State) : Result :=
  match s.line with
  | .hardReset :: rest => .next (hardReset { s with line := rest })
  | line =>
    match s.port.phase with
    | .busy w _ => deliver (runWord w s)
    | .done _ => .next (takeResponse s)
    | .idle =>
      match line with
      | [] => .next s
      | e :: rest => hostEvent e { s with line := rest }

/-! The signal layer (R32). -/

/-- The block's inputs as sampled on one rising edge of `clk` (R32). -/
structure Pins where
  rstN : Bool
  cmdValid : Bool
  cmdData : Word
  rspReady : Bool
deriving DecidableEq, Repr

/-- `cmd_ready` (R32, R33, R136). -/
def cmdReady (p : Pins) (s : State) : Bool :=
  p.rstN && match s.port.phase with | .idle => true | _ => false

/-- `rsp_valid` (R32, R33, R136). -/
def rspValid (p : Pins) (s : State) : Bool :=
  p.rstN && match s.port.phase with | .done _ => true | _ => false

/-- `rsp_data`: the response, where there is one; the spec gives it no value while `rsp_valid = 0` (R32). -/
def rspData (s : State) : Option Word :=
  match s.port.phase with
  | .done r => some r
  | _ => none

/-- The words offered up to and including this edge, where no command is accepted on it: none once
`cmd_valid` is withdrawn (R144, I7). -/
def noteOffer (p : Pins) (s : State) : State :=
  { s with port := { s.port with offered := if p.cmdValid then s.port.offered ++ [p.cmdData] else [] } }

/-- The word accepted on an edge where `cmd_valid` and `cmd_ready` are 1: the word on `cmd_data`, where no other
was offered before it in the same wait (R144). -/
def edgeWord (p : Pins) (s : State) : Word :=
  match s.port.offered with
  | [] => p.cmdData
  | first :: later => acceptedWord first (later ++ [p.cmdData]) s

/-- The state after that choice. -/
def edgeChoice (p : Pins) (s : State) : State :=
  match s.port.offered with
  | [] => s
  | first :: later => afterChoice first (later ++ [p.cmdData]) s

/-- Accepting a command on this edge (R32): `LAT(op)` cycles from here its response is ready (R33, R142). -/
def acceptCommand (p : Pins) (s : State) : State :=
  { edgeChoice p s with
    port := {
      phase := .busy (edgeWord p s) (latency s.params (opcodeOf (edgeWord p s)) s.rs.k)
      offered := [] } }

/-- One rising edge of `clk` with these inputs. While `rst_n = 0` everything takes its reset value (R136). A
command is accepted where `cmd_valid` and `cmd_ready` are 1, and a response is taken where `rsp_valid` and
`rsp_ready` are 1 (R32). A command's whole effect appears with its response (R36). -/
def clockEdge (p : Pins) (s : State) : Result :=
  if p.rstN then
    match s.port.phase with
    | .idle => .next (if p.cmdValid then acceptCommand p s else noteOffer p s)
    | .busy w left =>
      if left ≤ 1 then runWord w (noteOffer p s)
      else .next (noteOffer p { s with port := { s.port with phase := .busy w (left - 1) } })
    | .done _ => .next (noteOffer p (if p.rspReady then takeResponse s else s))
  else .next (hardReset s)

/-- A sequence of rising edges. -/
def clockEdges : List Pins → State → Result
  | [], s => .next s
  | p :: ps, s =>
    match clockEdge p s with
    | .next s' => clockEdges ps s'
    | .fault r => .fault r
    | .refused r => .refused r

end Sys2Proof.Machine
end

