-- ==== Sys2Proof/Machine/Step.lean ====
section
/-! DEFINITION. One step of the machine: one transaction of the host with the block (spec/00_scope.md R10). -/

namespace Sys2Proof.Machine

/-- One transaction (Port.lean). -/
def step (s : State) : Host.Outcome State Fault Refusal := transact s

/-- The state in which the host's very next act is to issue the command word `w` (its `nbits` low bits) at an
idle port. The block fetches nothing (R12): this stands for the host's command. -/
def State.withFetchWord (s : State) (nbits w : Nat) : State :=
  { s with
    port := { s.port with phase := .idle }
    line := .command (BitVec.ofNat 32 (w % 2 ^ nbits)) :: s.line }

end Sys2Proof.Machine
end

