-- ==== Sys2Proof/Machine/Assembler.lean ====
section
/-! DEFINITION. The assembler of spec/30_encoding.md R54 and its pseudo-instructions (R55). The block sees only
the words it produces. What the rules leave open of the text form is assumption 14. -/

namespace Sys2Proof.Machine

/-- R55. No expansion for a `B900_READ` count outside 1..5 or an `RS_READALL` level outside 0..8, for which the
table gives none. -/
def pseudoExpand : Pseudo → Option (List Instr)
  | .rdstat => some [.rdreg 0x00]
  | .txtPair a b => some [.txtPush a, .txtPush b]
  | .b900Group b0 b1 b2 b3 b4 b5 => some ([b0, b1, b2, b3, b4, b5].map Instr.b900Push)
  | .b900Read n =>
    if 1 ≤ n ∧ n ≤ 5 then some ((List.range n).map (fun j => .rdreg (0x08 + j))) else none
  | .rsReadall l =>
    if l ≤ 8 then some ((List.range (Config.corrections l)).map Instr.rsRdout) else none

/-- The words of a list of commands; none where an operand does not fit its sub-field (R54). -/
def assembleAll (is : List Instr) : Option (List Word) := is.mapM assemble

/-- A digit of base `base`. -/
def digitValue (base : Nat) (ch : Char) : Option Nat :=
  let v :=
    if '0' ≤ ch ∧ ch ≤ '9' then ch.toNat - '0'.toNat
    else if 'a' ≤ ch ∧ ch ≤ 'f' then ch.toNat - 'a'.toNat + 10
    else if 'A' ≤ ch ∧ ch ≤ 'F' then ch.toNat - 'A'.toNat + 10
    else base
  if v < base then some v else none

/-- A non-empty string of digits, most significant first. -/
def parseDigits (base : Nat) : List Char → Option Nat
  | [] => none
  | cs => cs.foldl (fun acc ch => acc.bind fun n => (digitValue base ch).map fun v => n * base + v) (some 0)

/-- An operand in decimal or in `0x` hexadecimal (R54). -/
def parseNumber : List Char → Option Nat
  | '0' :: 'x' :: cs => parseDigits 16 cs
  | cs => parseDigits 10 cs

def isBlank (ch : Char) : Bool := ch == ' ' || ch == '\t'

/-- The text without blanks at its ends. -/
def trimBlanks (cs : List Char) : List Char :=
  (((cs.dropWhile isBlank).reverse).dropWhile isBlank).reverse

/-- The operands of a line, between commas. -/
def parseOperands (cs : List Char) : Option (List Nat) :=
  match trimBlanks cs with
  | [] => some []
  | body => (body.splitOn ',').mapM (fun part => parseNumber (trimBlanks part))

/-- A mnemonic or pseudo-mnemonic with its operands, as commands (R54, R55). -/
def statementOf (name : List Char) (operands : List Nat) : Option (List Instr) :=
  if name = "NOP".toList then match operands with | [] => some [.nop] | _ => none
  else if name = "SRST".toList then match operands with | [] => some [.srst] | _ => none
  else if name = "RDREG".toList then match operands with | [x] => some [.rdreg x] | _ => none
  else if name = "TXT_PUSH".toList then match operands with | [x] => some [.txtPush x] | _ => none
  else if name = "TXT_FLUSH".toList then match operands with | [] => some [.txtFlush] | _ => none
  else if name = "B900_PUSH".toList then match operands with | [x] => some [.b900Push x] | _ => none
  else if name = "B900_FLUSH".toList then match operands with | [] => some [.b900Flush] | _ => none
  else if name = "B900_MODE".toList then match operands with | [x] => some [.b900Mode x] | _ => none
  else if name = "RS_INIT".toList then match operands with | [x] => some [.rsInit x] | _ => none
  else if name = "RS_FEED".toList then match operands with | [x] => some [.rsFeed x] | _ => none
  else if name = "RS_RDOUT".toList then match operands with | [x] => some [.rsRdout x] | _ => none
  else if name = "RDSTAT".toList then match operands with | [] => pseudoExpand .rdstat | _ => none
  else if name = "TXT_PAIR".toList then
    match operands with | [a, b] => pseudoExpand (.txtPair a b) | _ => none
  else if name = "B900_GROUP".toList then
    match operands with
    | [b0, b1, b2, b3, b4, b5] => pseudoExpand (.b900Group b0 b1 b2 b3 b4 b5)
    | _ => none
  else if name = "B900_READ".toList then
    match operands with | [n] => pseudoExpand (.b900Read n) | _ => none
  else if name = "RS_READALL".toList then
    match operands with | [l] => pseudoExpand (.rsReadall l) | _ => none
  else none

/-- One line of assembler text: comments start with `;` (R54), a line without a statement gives no command. -/
def parseLine (line : List Char) : Option (List Instr) :=
  match trimBlanks (line.takeWhile (· != ';')) with
  | [] => some []
  | body =>
    (parseOperands (body.dropWhile (fun ch => !isBlank ch))).bind
      (statementOf (body.takeWhile (fun ch => !isBlank ch)))

/-- The words of one line of assembler text. -/
def assembleLine (line : String) : Option (List Word) := (parseLine line.toList).bind assembleAll

end Sys2Proof.Machine
end

