-- ==== Sys2Proof/Safety.lean ====
section
/-! DEFINITION. The terms claims use: legal states (the ranges of spec/10_state.md R11 and its invariants),
runs and their observation (spec/70_reset_and_hazards.md R146), the units of the commands
(spec/20_memory.md R42), and the source's own correction algorithm (spec/43_rs.md, quoted whole there). -/

namespace Sys2Proof.Machine

/-- The parameters respect R7: where a level has a table it has `K(l)` coefficients in 0..928, and every mode
indicator lies in 0..928. -/
structure LegalParams (p : Params) : Prop where
  coefCount : ∀ l, l ≤ 8 → coefPresent p l = true → (p.coef[l]?.getD []).length = Config.corrections l
  coefRange : ∀ l j, (coefAt p l j).toNat ≤ 928
  shiftByte : p.modeShiftByte.toNat ≤ 928
  byte : p.modeByte.toNat ≤ 928
  byte6 : p.modeByte6.toNat ≤ 928

/-- The legal states: every register in its range of R11, and the invariants of R15, R16, R19, R22, R24, R26
and R30. Every state a run reaches is one; the statements say so. -/
structure Legal (s : State) : Prop where
  /-- R116: codes 5..15 are never produced. -/
  err : s.err.toNat ≤ 4
  /-- R16. -/
  level : s.rs.level.toNat ≤ 8
  /-- R15, R137: before the first `RS_INIT` the unit is as reset left it. -/
  unselected : s.rs.valid = false → s.rs = RsUnit.reset
  /-- R16, R81: a selected level has a table. -/
  selected : s.rs.valid = true → coefPresent s.params s.rs.level.toNat = true
  /-- R19. -/
  entries : ∀ j, (entryAt s.rs.acc j).toNat ≤ 928
  /-- R30: entries beyond `RS_K` are 0. -/
  unused : ∀ j, s.rs.k ≤ j → entryAt s.rs.acc j = 0
  /-- R22. -/
  hi : s.txt.hi.toNat ≤ 29
  /-- R22. -/
  hiClear : s.txt.pend = false → s.txt.hi = 0
  /-- R23. -/
  groupCount : s.b900.n.toNat ≤ 5
  /-- R24. -/
  groupAcc : s.b900.acc.toNat < 256 ^ s.b900.n.toNat
  /-- R25. -/
  outCount : s.b900.outN.toNat ≤ 5
  /-- R26. -/
  outRange : ∀ j, (entryAt s.b900.out j).toNat ≤ 899
  /-- R26: entries from `B_OUTN` up are 0. -/
  outUnused : ∀ j, s.b900.outN.toNat ≤ j → entryAt s.b900.out j = 0
  /-- R52: a response that is ready shows `ERR` as it stands. -/
  ready : ∀ r, s.port.phase = .done r → r = responseWord s.err (responseValid r) (responseValue r)

/-- A command of the base-30 unit (R47). -/
def isText : Instr → Bool
  | .txtPush _ => true
  | .txtFlush => true
  | _ => false

/-- A command of the base-900 unit (R47). -/
def isGroup : Instr → Bool
  | .b900Push _ => true
  | .b900Flush => true
  | .b900Mode _ => true
  | _ => false

/-- A command of the RS unit (R47). -/
def isRs : Instr → Bool
  | .rsInit _ => true
  | .rsFeed _ => true
  | .rsRdout _ => true
  | _ => false

/-- The commands that are not refused while `ERR != 0` (R119). -/
def isExempt : Instr → Bool
  | .nop => true
  | .srst => true
  | .rdreg _ => true
  | _ => false

/-- The architectural record of R11. -/
structure Arch where
  err : BitVec 4
  rs : RsUnit
  txt : Base30Unit
  b900 : Base900Unit
deriving DecidableEq, Repr

/-- The architectural record of a state (R11). -/
def State.arch (s : State) : Arch := ⟨s.err, s.rs, s.txt, s.b900⟩

/-- The response that is ready at the port (R33), if any. -/
def readyResponse (s : State) : Option Word :=
  match s.port.phase with
  | .done r => some r
  | _ => none

/-- The host has these command words to issue, in order. -/
def State.issue (s : State) (ws : List Word) : State := { s with line := ws.map HostEvent.command }

/-- `n` steps of the machine. -/
def steps : Nat → State → Result
  | 0, s => .next s
  | n + 1, s =>
    match step s with
    | .next t => steps n t
    | .fault r => .fault r
    | .refused r => .refused r

/-- The run of a sequence of command words (R146), one step each. -/
def runWords (ws : List Word) (s : State) : Result := steps ws.length (s.issue ws)

/-- The run of a sequence of commands. -/
def runCommands (is : List Instr) (s : State) : Result := runWords (is.map encode) s

/-- A run has succeeded if no response in it has `ERRF = 1` (R146). -/
def succeeded (responses : List Word) : Prop := ∀ r ∈ responses, responseErrf r = false

/-- The values of the responses with `VALID = 1`, in order. -/
def validValues (responses : List Word) : List Nat :=
  (responses.filter responseValid).map (fun r => (responseValue r).toNat)

/-- The host of R75: it pushes a payload byte by byte, reads `B_OUT` after each completing push, flushes, and
reads what the flush left. -/
def payloadCommands : List Nat → List Instr
  | b0 :: b1 :: b2 :: b3 :: b4 :: b5 :: rest =>
    [.b900Push b0, .b900Push b1, .b900Push b2, .b900Push b3, .b900Push b4, .b900Push b5,
      .rdreg 0x08, .rdreg 0x09, .rdreg 0x0A, .rdreg 0x0B, .rdreg 0x0C] ++ payloadCommands rest
  | rest =>
    rest.map Instr.b900Push ++ .b900Flush :: (List.range rest.length).map (fun j => .rdreg (0x08 + j))

/-- `Σ byte[j] * 256^(n-1-j)`: the accumulation of bytes, first byte most significant (R24, R71). -/
def bytesValue (bytes : List Nat) : Nat := bytes.foldl (fun acc b => acc * 256 + b) 0

/-- The 5 codewords of a group value: digit `m` is `(A div 900^(4-m)) mod 900` (R72). -/
def groupDigits (a : Nat) : List Nat :=
  [a / 900 ^ 4 % 900, a / 900 ^ 3 % 900, a / 900 ^ 2 % 900, a / 900 % 900, a % 900]

/-- The codewords of a payload (R75): 5 for each full group, and the last bytes as they are. -/
def payloadCodewords : List Nat → List Nat
  | b0 :: b1 :: b2 :: b3 :: b4 :: b5 :: rest =>
    groupDigits (bytesValue [b0, b1, b2, b3, b4, b5]) ++ payloadCodewords rest
  | rest => rest

/-- The values answered to the `RDREG` commands of a run. -/
def rdregValues (commands : List Instr) (responses : List Word) : List Nat :=
  (commands.zip responses).filterMap fun cr =>
    match cr.1 with
    | .rdreg _ => some (responseValue cr.2).toNat
    | _ => none

/-- The codewords fed by a list of RS commands. -/
def fedCodewords (commands : List Instr) : List Nat :=
  commands.filterMap fun i =>
    match i with
    | .rsFeed d => some d
    | _ => none

/-! The source's correction algorithm, on naturals and as it stands in the quotation that opens
spec/43_rs.md: zero the accumulator, run the loop for every data codeword, negate every nonzero entry,
reverse. -/

/-- The inner loop with `j` entries left, from `k-1` down to 0. -/
def sourceLoop (a : Nat → Nat) (t : Nat) : Nat → List Nat → List Nat
  | 0, cs => cs
  | j + 1, cs =>
    sourceLoop a t j
      (cs.set j (((if j = 0 then 0 else cs.getD (j - 1) 0) + 929 - (t * a j) % 929) % 929))

/-- One data codeword. -/
def sourceStep (a : Nat → Nat) (k : Nat) (cs : List Nat) (d : Nat) : List Nat :=
  sourceLoop a ((d + cs.getD (k - 1) 0) % 929) k cs

/-- The final correction codeword sequence. -/
def sourceCorrections (a : Nat → Nat) (k : Nat) (data : List Nat) : List Nat :=
  ((data.foldl (sourceStep a k) (List.replicate k 0)).map (fun x => if x = 0 then 0 else 929 - x)).reverse

end Sys2Proof.Machine
end

