-- ==== Sys2Proof/Certificates/Slice0/Obligations.lean ====
section
/-! DEFINITION. The statements for the provers. Each docstring names the rule of spec/ it formalises. Every
statement holds for every value of the open parameters; where an example of the spec rests on default
parameters, the statement names the values it assumes. `State.answer` is the end of a command:
AnswerSetsResponseAndIndexOnly says what it is. -/

open Sys2Proof Sys2Proof.Machine

/-! ## Encoding -/

/-- R46 to R49: decoding the word of a well-formed command gives the command, with every operand at every value
its field admits. -/
def Obligations.DecodeOfEncodeIsIdentity : Prop :=
  ∀ i : Instr, i.WellFormed → decode (encode i) = .command i

/-- R46 to R49: a word that decodes to a command is that command's word, and its operand fits its field. -/
def Obligations.EncodeOfDecodeIsIdentity : Prop :=
  ∀ (w : Word) (i : Instr), decode w = .command i → i.WellFormed ∧ encode i = w

/-- R49: the word decodes to a row's command exactly where `w AND mask = match`; each mask covers the opcode and
the reserved bits, so what it leaves out is the operand field of R48; at most one row matches; a word no row
matches is illegal. R56: each operand is `w[hi:0]` as an unsigned natural. -/
def Obligations.DecodeFollowsMaskAndMatch : Prop :=
  (∀ w : Word, decode w = .command .nop ↔ w &&& 0xFFFFFFFF#32 = 0x00000000#32) ∧
  (∀ w : Word, decode w = .command .srst ↔ w &&& 0xFFFFFFFF#32 = 0x01000000#32) ∧
  (∀ (w : Word) (idx : Nat), decode w = .command (.rdreg idx) ↔
    w &&& 0xFFFFFF00#32 = 0x02000000#32 ∧ idx = (w.extractLsb' 0 8).toNat) ∧
  (∀ (w : Word) (v : Nat), decode w = .command (.txtPush v) ↔
    w &&& 0xFFFFFFE0#32 = 0x10000000#32 ∧ v = (w.extractLsb' 0 5).toNat) ∧
  (∀ w : Word, decode w = .command .txtFlush ↔ w &&& 0xFFFFFFFF#32 = 0x11000000#32) ∧
  (∀ (w : Word) (b : Nat), decode w = .command (.b900Push b) ↔
    w &&& 0xFFFFFF00#32 = 0x20000000#32 ∧ b = (w.extractLsb' 0 8).toNat) ∧
  (∀ w : Word, decode w = .command .b900Flush ↔ w &&& 0xFFFFFFFF#32 = 0x21000000#32) ∧
  (∀ (w : Word) (len : Nat), decode w = .command (.b900Mode len) ↔
    w &&& 0xFF000000#32 = 0x22000000#32 ∧ len = (w.extractLsb' 0 24).toNat) ∧
  (∀ (w : Word) (lvl : Nat), decode w = .command (.rsInit lvl) ↔
    w &&& 0xFFFFFFF0#32 = 0x30000000#32 ∧ lvl = (w.extractLsb' 0 4).toNat) ∧
  (∀ (w : Word) (d : Nat), decode w = .command (.rsFeed d) ↔
    w &&& 0xFFFFFC00#32 = 0x31000000#32 ∧ d = (w.extractLsb' 0 10).toNat) ∧
  (∀ (w : Word) (i : Nat), decode w = .command (.rsRdout i) ↔
    w &&& 0xFFFFFE00#32 = 0x32000000#32 ∧ i = (w.extractLsb' 0 9).toNat) ∧
  (∀ r ∈ encTable, r.mask.extractLsb' 24 8 = 0xFF#8) ∧
  encTable.map (fun r => (~~~ r.mask).toNat) =
    [0, 0, 2 ^ 8 - 1, 2 ^ 5 - 1, 0, 2 ^ 8 - 1, 0, 2 ^ 24 - 1, 2 ^ 4 - 1, 2 ^ 10 - 1, 2 ^ 9 - 1] ∧
  encTable.Pairwise (fun a b => ∀ w : Word, ¬ (w &&& a.mask = a.pattern ∧ w &&& b.mask = b.pattern)) ∧
  (∀ w : Word, (∃ why, decode w = .illegal why) ↔ ∀ r ∈ encTable, w &&& r.mask ≠ r.pattern)

/-- Words written out from R47 and R48 decode to the commands they stand for, and two illegal words do not. -/
def Obligations.SpecWordsDecodeAsWritten : Prop :=
  decode 0x02000008#32 = .command (.rdreg 8) ∧
  decode 0x1000001D#32 = .command (.txtPush 29) ∧
  decode 0x2200000C#32 = .command (.b900Mode 12) ∧
  decode 0x31000391#32 = .command (.rsFeed 913) ∧
  decode 0x320001FF#32 = .command (.rsRdout 511) ∧
  decode 0x0F000000#32 = .illegal .unassignedOpcode ∧
  decode 0x31000400#32 = .illegal .reservedBitSet

/-- R50: which words are illegal, and what an illegal word does: it raises IllegalCommand (code 1) where no error
is latched, has no effect otherwise, and answers `respond(0, 0)` in both cases. -/
def Obligations.IllegalWordRaisesOnlyWhileClear : Prop :=
  (∀ w : Word, (∃ why, decode w = .illegal why) ↔
    (∀ r ∈ encTable, r.pattern.extractLsb' 24 8 ≠ w.extractLsb' 24 8) ∨
    (∃ r ∈ encTable, r.pattern.extractLsb' 24 8 = w.extractLsb' 24 8 ∧
      w &&& r.mask &&& 0x00FFFFFF#32 ≠ 0)) ∧
  (∀ (w : Word) (why : Illegal) (s : State), decode w = .illegal why →
    (s.err = 0 → runWord w s = .next (State.answer { s with err := 1 } false 0)) ∧
    (s.err ≠ 0 → runWord w s = .next (s.answer false 0)))

/-! ## Responses -/

/-- What the end of a command changes: the response at the port and the command index (R12, R52). The index is
the model's pc stand-in, which R12 allows (assumption 2). -/
def Obligations.AnswerSetsResponseAndIndexOnly : Prop :=
  ∀ (s : State) (valid : Bool) (value : Value),
    s.answer valid value =
      { s with
        port := { s.port with phase := .done (responseWord s.err valid value) }
        index := s.index + 1 } ∧
    readyResponse (s.answer valid value) = some (responseWord s.err valid value)

/-- R52: the fields of the response word, and every command word in every state, executed, raising or refused,
produces exactly one such word, made from `ERR` as it stands after the command. -/
def Obligations.ResponseWordFields : Prop :=
  (∀ (err : BitVec 4) (valid : Bool) (value : Value),
    (responseWord err valid value).getLsbD 31 = decide (err ≠ 0) ∧
    (responseWord err valid value).getLsbD 30 = valid ∧
    (responseWord err valid value).extractLsb' 28 2 = 0 ∧
    (responseWord err valid value).extractLsb' 24 4 = err ∧
    (responseWord err valid value).extractLsb' 0 24 = (if valid then value else 0)) ∧
  (∀ (w : Word) (s : State), ∃ t valid value, runWord w s = .next t ∧
    readyResponse t = some (responseWord t.err valid value) ∧
    deliver (.next t) = .next { t with
      port := { t.port with phase := .idle }
      observed := t.observed ++ [responseWord t.err valid value] })

/-! ## Dispatch and errors -/

/-- R10, R117: a step on a command word the host issues runs the decoded instruction; around it the step takes
the word from the host's line and lets the host take the response. -/
def Obligations.StepRunsDecodedInstruction : Prop :=
  (∀ (s : State) (w : Word) (rest : List HostEvent) (i : Instr),
    s.port.phase = .idle → s.line = .command w :: rest → decode w = .command i →
    step s = deliver (exec i { s with line := rest })) ∧
  (∀ (s : State) (nbits w : Nat) (i : Instr), decodeTableWord nbits w = some i →
    step (s.withFetchWord nbits w) = deliver (exec i { s with port := { s.port with phase := .idle } })) ∧
  (∀ (t : State) (r : Word), t.port.phase = .done r →
    deliver (.next t) = .next { t with
      port := { t.port with phase := .idle }
      observed := t.observed ++ [r] })

/-- R117: the dispatch, total, and reading only the architectural record, the word and the parameters. -/
def Obligations.DispatchIsTheStepFunction : Prop :=
  (∀ (w : Word) (s : State) (why : Illegal), decode w = .illegal why →
    runWord w s = if s.err = 0 then raise .illegalCommand s else respond false 0 s) ∧
  (∀ (w : Word) (s : State) (i : Instr), decode w = .command i → s.err ≠ 0 →
    i ≠ .nop → i ≠ .srst → (∀ idx, i ≠ .rdreg idx) → runWord w s = respond false 0 s) ∧
  (∀ (w : Word) (s : State) (i : Instr), decode w = .command i →
    (s.err = 0 ∨ i = .nop ∨ i = .srst ∨ ∃ idx, i = .rdreg idx) → runWord w s = exec i s) ∧
  (∀ (w : Word) (s₁ s₂ : State), s₁.arch = s₂.arch → s₁.params = s₂.params →
    ∃ t₁ t₂, runWord w s₁ = .next t₁ ∧ runWord w s₂ = .next t₂ ∧ t₁.arch = t₂.arch ∧
      readyResponse t₁ = readyResponse t₂)

/-- R10: the step is total: no state and no input stops the machine, at the transaction level or on a clock
edge. -/
def Obligations.NothingStopsTheMachine : Prop :=
  (∀ s : State, ∃ t, step s = .next t) ∧ (∀ (p : Pins) (s : State), ∃ t, clockEdge p s = .next t)

/-- R119: while `ERR != 0` every command but NOP, SRST and RDREG changes no state and answers `respond(0, 0)`
with `ERRF = 1`; NOP and RDREG remain available to inspect the block and SRST to recover. -/
def Obligations.RefusalChangesNothing : Prop :=
  (∀ (i : Instr) (s : State), s.err ≠ 0 → i ≠ .nop → i ≠ .srst → (∀ idx, i ≠ .rdreg idx) →
    exec i s = .next (s.answer false 0) ∧ (s.answer false 0).arch = s.arch ∧
    (s.answer false 0).err = s.err ∧ responseErrf (responseWord s.err false 0) = true) ∧
  (∀ s : State, exec .nop s = .next (s.answer false 0)) ∧
  (∀ (s : State) (idx : Nat) (value : Value), regmap s idx = some value →
    exec (.rdreg idx) s = .next (s.answer true value)) ∧
  (∀ s : State, ∃ t, exec .srst s = .next t ∧ t.err = 0)

/-- R118: `raise E` writes the code of `E` and nothing else and answers `respond(0, 0)`, whose response has
`ERRF = 1`, `VALID = 0` and the code; no command raises while an error is latched, and a command that raises
has no other effect. The codes are those of R116. -/
def Obligations.RaiseWritesErrAndNothingElse : Prop :=
  (∀ (e : ErrorCode) (s : State),
    raise e s = .next (State.answer { s with err := e.code } false 0) ∧
    responseErrf (responseWord e.code false 0) = true ∧
    responseValid (responseWord e.code false 0) = false ∧
    (responseWord e.code false 0).extractLsb' 24 4 = e.code) ∧
  ErrorCode.illegalCommand.code = 1 ∧ ErrorCode.unsupportedCorrectionLevel.code = 2 ∧
  ErrorCode.operandRange.code = 3 ∧ ErrorCode.sequenceError.code = 4 ∧
  (∀ (w : Word) (s t : State), runWord w s = .next t → t.err ≠ s.err → decode w ≠ .command .srst →
    s.err = 0 ∧ ∃ e : ErrorCode, t = State.answer { s with err := e.code } false 0)

/-- R123: while `ERR != 0` nothing changes it but a reset: every word other than SRST leaves `ERR`, and with it
all the architectural state, as it is. -/
def Obligations.FirstErrorIsKept : Prop :=
  ∀ (w : Word) (s t : State), s.err ≠ 0 → decode w ≠ .command .srst → runWord w s = .next t →
    t.err = s.err ∧ t.arch = s.arch

/-- R120: illegal word, then refusal, then SequenceError, then the operand check. -/
def Obligations.ErrorPriorityOrder : Prop :=
  (∀ (w : Word) (why : Illegal) (s : State), decode w = .illegal why →
    runWord w s = if s.err = 0 then raise .illegalCommand s else respond false 0 s) ∧
  (∀ (i : Instr) (s : State), s.err ≠ 0 → isExempt i = false → exec i s = respond false 0 s) ∧
  (∀ (d : Nat) (s : State), s.err = 0 → s.rs.valid = false → exec (.rsFeed d) s = raise .sequenceError s) ∧
  (∀ (i : Nat) (s : State), s.err = 0 → s.rs.valid = false → exec (.rsRdout i) s = raise .sequenceError s) ∧
  (∀ (d : Nat) (s : State), s.err = 0 → s.rs.valid = true → 928 < d →
    exec (.rsFeed d) s = raise .operandRange s) ∧
  (∀ (i : Nat) (s : State), s.err = 0 → s.rs.valid = true → 2 <<< s.rs.level.toNat ≤ i →
    exec (.rsRdout i) s = raise .operandRange s) ∧
  (∀ (l : Nat) (s : State), s.err = 0 → (8 < l ∨ coefPresent s.params l = false) →
    exec (.rsInit l) s = raise .unsupportedCorrectionLevel s) ∧
  (∀ (v : Nat) (s : State), s.err = 0 → 29 < v → exec (.txtPush v) s = raise .operandRange s) ∧
  (∀ (idx : Nat) (s : State), s.err = 0 → (idx = 7 ∨ 12 < idx) →
    exec (.rdreg idx) s = raise .operandRange s)

/-- R122: return from an error is by reset only, and all unit state is discarded. A step that clears `ERR` is the
hardware reset at the head of the host's line, or it ran SRST's word: the word in flight, the command at the head
of the line, or the one accepted of the words offered there. -/
def Obligations.ErrorIsClearedByResetOnly : Prop :=
  ∀ s t : State, s.err ≠ 0 → step s = .next t → t.err = 0 →
    t.rs = RsUnit.reset ∧ t.txt = Base30Unit.reset ∧ t.b900 = Base900Unit.reset ∧
    ((∃ rest, s.line = .hardReset :: rest ∧ step s = .next (hardReset { s with line := rest })) ∨
      ∃ (w : Word) (s' : State), decode w = .command .srst ∧ step s = deliver (runWord w s') ∧
        ((∃ left, s.port.phase = .busy w left ∧ s' = s) ∨
          (∃ rest, s.port.phase = .idle ∧ s.line = .command w :: rest ∧ s' = { s with line := rest }) ∨
          (∃ (first : Word) (later : List Word) (rest : List HostEvent) (n : Nat),
            s.port.phase = .idle ∧ s.line = .unstable first later :: rest ∧ w ∈ first :: later ∧
            w = acceptedWord first later { s with line := rest } ∧
            s' = { s with line := rest, freeCount := n })))

/-! ## Control commands -/

/-- R61: NOP. -/
def Obligations.NopChangesNothing : Prop :=
  encode .nop = 0x00000000#32 ∧ decode 0x00000000#32 = .command .nop ∧
  (∀ w : Word, w.extractLsb' 24 8 = 0x00#8 → w ≠ 0 → decode w = .illegal .reservedBitSet) ∧
  (∀ s : State, exec .nop s = .next (s.answer false 0) ∧ (s.answer false 0).arch = s.arch ∧
    readyResponse (s.answer false 0) = some (responseWord s.err false 0)) ∧
  readyResponse (State.reset.answer false 0) = some 0x00000000#32

/-- R62: SRST puts every register of the architectural record at its reset value, in every state, and answers
0x00000000; the parameters are unaffected; no other command clears `ERR`. -/
def Obligations.SrstRestoresResetState : Prop :=
  encode .srst = 0x01000000#32 ∧ decode 0x01000000#32 = .command .srst ∧
  (∀ w : Word, w.extractLsb' 24 8 = 0x01#8 → w ≠ 0x01000000#32 → decode w = .illegal .reservedBitSet) ∧
  (∀ s : State, exec .srst s = .next (State.answer
      { s with
        err := 0
        rs := { valid := false, level := 0, dcnt := 0, acc := Vector.replicate 512 0 }
        txt := { pend := false, hi := 0 }
        b900 := { n := 0, acc := 0, outN := 0, out := Vector.replicate 5 0 } } false 0)) ∧
  (∀ s t : State, exec .srst s = .next t → readyResponse t = some 0x00000000#32 ∧
    regmap t 0x00 = some 0 ∧ t.params = s.params) ∧
  (∀ (i : Instr) (s t : State), s.err ≠ 0 → exec i s = .next t → t.err = 0 → i = .srst)

/-- R63 with the register map of R27: what RDREG answers at every index, and that it changes nothing but `ERR`
on the unmapped path. -/
def Obligations.RdregReadsRegisterMap : Prop :=
  (∀ s : State,
    regmap s 0x00 = some (statusWord s) ∧
    regmap s 0x01 = some (s.rs.level.setWidth 24) ∧
    regmap s 0x02 = some (BitVec.ofNat 24 (2 <<< s.rs.level.toNat)) ∧
    regmap s 0x03 = some (s.rs.dcnt.setWidth 24) ∧
    regmap s 0x04 = some (s.txt.hi.setWidth 24) ∧
    regmap s 0x05 = some (s.b900.acc.extractLsb' 0 24) ∧
    regmap s 0x06 = some (s.b900.acc.extractLsb' 24 24) ∧
    regmap s 0x07 = none ∧
    (∀ j, (h : j < 5) → regmap s (0x08 + j) = some (s.b900.out[j].setWidth 24)) ∧
    (∀ idx, 0x0D ≤ idx → regmap s idx = none)) ∧
  (∀ (s : State) (idx : Nat) (value : Value), regmap s idx = some value →
    exec (.rdreg idx) s = .next (s.answer true value)) ∧
  (∀ (s : State) (idx : Nat), (idx = 0x07 ∨ 0x0D ≤ idx) → s.err = 0 →
    exec (.rdreg idx) s = .next (State.answer { s with err := 3 } false 0)) ∧
  (∀ (s : State) (idx : Nat), (idx = 0x07 ∨ 0x0D ≤ idx) → s.err ≠ 0 →
    exec (.rdreg idx) s = .next (s.answer false 0)) ∧
  (∀ (w : Word) (idx : Nat), decode w = .command (.rdreg idx) ↔
    w &&& 0xFFFFFF00#32 = 0x02000000#32 ∧ idx = (w.extractLsb' 0 8).toNat) ∧
  (∀ s : State, (statusWord s).extractLsb' 0 4 = s.err) ∧
  (∀ s : State, s.rs = RsUnit.reset → regmap s 0x01 = some 0 ∧ regmap s 0x02 = some 2) ∧
  (∃ t, exec (.rdreg 0x02) State.reset = .next t ∧ readyResponse t = some 0x40000002#32)

/-- R28: the fields of STATUS, read at index 0x00; reading changes none of them. -/
def Obligations.StatusFields : Prop :=
  ∀ s : State,
    (statusWord s).extractLsb' 0 4 = s.err ∧
    (statusWord s).getLsbD 4 = s.rs.valid ∧
    (statusWord s).getLsbD 5 = s.txt.pend ∧
    (statusWord s).extractLsb' 6 3 = s.b900.n ∧
    (statusWord s).extractLsb' 9 3 = s.b900.outN ∧
    (statusWord s).extractLsb' 12 4 = s.rs.level ∧
    (statusWord s).extractLsb' 16 8 = 0 ∧
    exec (.rdreg 0x00) s = .next (s.answer true (statusWord s)) ∧
    (s.answer true (statusWord s)).arch = s.arch

/-! ## Base-30 unit -/

/-- R66: TXT_PUSH in every form: first value, second value, value out of range, refused. -/
def Obligations.TxtPushPairsValues : Prop :=
  (∀ (w : Word) (v : Nat), decode w = .command (.txtPush v) ↔
    w &&& 0xFFFFFFE0#32 = 0x10000000#32 ∧ v = (w.extractLsb' 0 5).toNat) ∧
  (∀ (s : State) (v : Nat), s.err = 0 → v ≤ 29 → s.txt.pend = false →
    exec (.txtPush v) s =
      .next (State.answer { s with txt := { pend := true, hi := BitVec.ofNat 5 v } } false 0)) ∧
  (∀ (s : State) (v : Nat), s.err = 0 → v ≤ 29 → s.txt.pend = true →
    exec (.txtPush v) s =
      .next (State.answer { s with txt := { pend := false, hi := 0 } } true
        (BitVec.ofNat 24 (s.txt.hi.toNat * 30 + v)))) ∧
  (∀ (s : State) (v : Nat), s.err = 0 → 29 < v →
    exec (.txtPush v) s = .next (State.answer { s with err := 3 } false 0)) ∧
  (∀ (s : State) (v : Nat), s.err ≠ 0 → exec (.txtPush v) s = .next (s.answer false 0)) ∧
  (∀ hi v : Nat, hi ≤ 29 → v ≤ 29 →
    (BitVec.ofNat 5 v).toNat = v ∧ hi * 30 + v ≤ 899 ∧
    (BitVec.ofNat 24 (hi * 30 + v)).toNat = hi * 30 + v) ∧
  (∃ t, runCommands [.txtPush 1, .txtPush 2] State.reset = .next t ∧
    t.observed = [0x00000000#32, 0x40000020#32])

/-- R67: TXT_FLUSH with a value pending, with none, and refused; flushing twice is harmless. -/
def Obligations.TxtFlushPadsWith29 : Prop :=
  encode .txtFlush = 0x11000000#32 ∧ (∀ w : Word, decode w = .command .txtFlush ↔ w = 0x11000000#32) ∧
  (∀ s : State, s.err = 0 → s.txt.pend = true →
    exec .txtFlush s =
      .next (State.answer { s with txt := { pend := false, hi := 0 } } true
        (BitVec.ofNat 24 (s.txt.hi.toNat * 30 + 29)))) ∧
  (∀ s : State, s.err = 0 → s.txt.pend = false → exec .txtFlush s = .next (s.answer false 0)) ∧
  (∀ s : State, s.err ≠ 0 → exec .txtFlush s = .next (s.answer false 0)) ∧
  (∀ s t : State, exec .txtFlush s = .next t → exec .txtFlush t = .next (t.answer false 0)) ∧
  (∃ t, runCommands [.txtPush 0, .txtFlush] State.reset = .next t ∧
    t.observed = [0x00000000#32, 0x4000001D#32])

/-- R68, the pairing law, over the machine's own run: `ceil(n/2)` codewords in order, and nothing pending
afterwards. -/
def Obligations.PairingLaw : Prop :=
  ∀ (s : State) (vs : List Nat), s.port.phase = .idle → s.err = 0 → s.txt.pend = false →
    (∀ v ∈ vs, v ≤ 29) →
    ∃ (t : State) (responses : List Word),
      runCommands (vs.map Instr.txtPush ++ [.txtFlush]) s = .next t ∧
      t.observed = s.observed ++ responses ∧
      (validValues responses).length = (vs.length + 1) / 2 ∧
      (∀ m, 2 * m + 1 < vs.length →
        (validValues responses)[m]? = some (vs.getD (2 * m) 0 * 30 + vs.getD (2 * m + 1) 0)) ∧
      (vs.length % 2 = 1 →
        (validValues responses)[vs.length / 2]? = some (vs.getD (vs.length - 1) 0 * 30 + 29)) ∧
      t.txt.pend = false

/-! ## Base-900 unit -/

/-- R71: B900_PUSH where it completes a group, where it does not, and refused. The accumulation never overflows
its register in a state of R23 and R24. -/
def Obligations.B900PushAccumulatesAndConverts : Prop :=
  (∀ (w : Word) (b : Nat), decode w = .command (.b900Push b) ↔
    w &&& 0xFFFFFF00#32 = 0x20000000#32 ∧ b = (w.extractLsb' 0 8).toNat) ∧
  (∀ (s : State) (b : Nat), s.err = 0 → s.b900.n = 5 →
    exec (.b900Push b) s =
      .next (State.answer
        { s with b900 := { n := 0, acc := 0, outN := 5, out := conv900 (s.b900.acc.toNat * 256 + b) } }
        true 5)) ∧
  (∀ (s : State) (b : Nat), s.err = 0 → s.b900.n.toNat < 5 →
    exec (.b900Push b) s =
      .next (State.answer
        { s with b900 := { s.b900 with
            n := s.b900.n + 1
            acc := BitVec.ofNat 48 (s.b900.acc.toNat * 256 + b) } }
        false 0)) ∧
  (∀ (s : State) (b : Nat), s.err ≠ 0 → exec (.b900Push b) s = .next (s.answer false 0)) ∧
  (∀ (u : Base900Unit) (b : Nat), u.n.toNat ≤ 5 → u.acc.toNat < 256 ^ u.n.toNat → b < 256 →
    u.acc.toNat * 256 + b < 256 ^ (u.n.toNat + 1) ∧ 256 ^ (u.n.toNat + 1) ≤ 2 ^ 48 ∧
    (BitVec.ofNat 48 (u.acc.toNat * 256 + b)).toNat = u.acc.toNat * 256 + b) ∧
  (∃ t, runCommands [.b900Push 0x41, .b900Push 0x42, .b900Push 0x43, .b900Push 0x44, .b900Push 0x45,
      .b900Push 0x46] State.reset = .next t ∧
    t.observed = [0#32, 0#32, 0#32, 0#32, 0#32, 0x40000005#32] ∧
    t.b900.out = #v[109, 326, 368, 127, 330])

/-- R72: the division loop, its closed form, and its bounds. -/
def Obligations.Conv900DividesExactly : Prop :=
  ∀ a : Nat, a < 2 ^ 48 →
    (∀ j, j < 5 → (entryAt (conv900 a) (4 - j)).toNat = ((fun x => x / 900)^[j] a) % 900) ∧
    (fun x => x / 900)^[5] a = 0 ∧
    (∀ m, m < 5 → (entryAt (conv900 a) m).toNat = a / 900 ^ (4 - m) % 900 ∧
      (entryAt (conv900 a) m).toNat ≤ 899) ∧
    (entryAt (conv900 a) 0).toNat * 900 ^ 4 + (entryAt (conv900 a) 1).toNat * 900 ^ 3 +
      (entryAt (conv900 a) 2).toNat * 900 ^ 2 + (entryAt (conv900 a) 3).toNat * 900 +
      (entryAt (conv900 a) 4).toNat = a ∧
    (entryAt (conv900 a) 0).toNat ≤ 429

/-- R73: B900_FLUSH writes the bytes of the partial group in input order, 0 beyond them, and reports their
number; refused while an error is latched. -/
def Obligations.B900FlushPassesBytesThrough : Prop :=
  encode .b900Flush = 0x21000000#32 ∧ (∀ w : Word, decode w = .command .b900Flush ↔ w = 0x21000000#32) ∧
  (∀ s : State, s.err = 0 → ∃ out : Vector Codeword 5,
    exec .b900Flush s =
      .next (State.answer { s with b900 := { n := 0, acc := 0, outN := s.b900.n, out := out } } true
        (s.b900.n.setWidth 24)) ∧
    (∀ j, (h : j < 5) → (out[j]).toNat =
      if j < s.b900.n.toNat then s.b900.acc.toNat / 256 ^ (s.b900.n.toNat - 1 - j) % 256 else 0)) ∧
  (∀ s : State, s.err ≠ 0 → exec .b900Flush s = .next (s.answer false 0)) ∧
  (∃ t, runCommands [.b900Push 1, .b900Push 2, .b900Push 3, .b900Flush] State.reset = .next t ∧
    t.observed = [0#32, 0#32, 0#32, 0x40000003#32] ∧ t.b900.out = #v[1, 2, 3, 0, 0] ∧ t.b900.outN = 3)

/-- R74: B900_MODE chooses the indicator by the literal rule and changes no state; the example's values are
those of the parameters it names. -/
def Obligations.B900ModeChoosesIndicator : Prop :=
  (∀ (w : Word) (len : Nat), decode w = .command (.b900Mode len) ↔
    w &&& 0xFF000000#32 = 0x22000000#32 ∧ len = (w.extractLsb' 0 24).toNat) ∧
  (∀ s : State, s.err = 0 →
    exec (.b900Mode 1) s = .next (s.answer true (s.params.modeShiftByte.setWidth 24))) ∧
  (∀ (s : State) (len : Nat), s.err = 0 → len % 6 = 0 →
    exec (.b900Mode len) s = .next (s.answer true (s.params.modeByte6.setWidth 24))) ∧
  (∀ (s : State) (len : Nat), s.err = 0 → len ≠ 1 → len % 6 ≠ 0 →
    exec (.b900Mode len) s = .next (s.answer true (s.params.modeByte.setWidth 24))) ∧
  (∀ (s : State) (len : Nat), s.err ≠ 0 → exec (.b900Mode len) s = .next (s.answer false 0)) ∧
  (∀ s : State, s.err = 0 → s.params.modeShiftByte = 913 → s.params.modeByte6 = 924 →
    ∃ t u, exec (.b900Mode 1) s = .next t ∧ readyResponse t = some 0x40000391#32 ∧
      exec (.b900Mode 12) s = .next u ∧ readyResponse u = some 0x4000039C#32)

/-- R24: after bytes `b0..b(n-1)` of one group `B_ACC` is `Σ b[j]*256^(n-1-j)`, and byte `j` is recoverable at
its place; the value packed by the sixth byte is `Σ byte[j]*256^(5-j)`. -/
def Obligations.GroupAccumulationHoldsBytes : Prop :=
  (∀ (s : State) (bytes : List Nat), s.port.phase = .idle → s.err = 0 → s.b900.n = 0 → s.b900.acc = 0 →
    bytes.length ≤ 5 → (∀ b ∈ bytes, b < 256) →
    ∃ t, runCommands (bytes.map Instr.b900Push) s = .next t ∧ t.b900.n.toNat = bytes.length ∧
      t.b900.acc.toNat = bytesValue bytes ∧
      t.b900.acc.toNat < 256 ^ t.b900.n.toNat ∧
      (∀ j, j < bytes.length →
        (t.b900.acc.extractLsb' (8 * (bytes.length - 1 - j)) 8).toNat = bytes.getD j 0)) ∧
  (∀ (s : State) (bytes : List Nat), s.port.phase = .idle → s.err = 0 → s.b900.n = 0 → s.b900.acc = 0 →
    bytes.length = 6 → (∀ b ∈ bytes, b < 256) →
    ∃ t, runCommands (bytes.map Instr.b900Push) s = .next t ∧ t.b900.n = 0 ∧ t.b900.acc = 0 ∧
      t.b900.out = conv900 (bytesValue bytes))

/-- R75, the group law, over the machine's own run: the host pushes a payload, reads `B_OUT` after each
completing push, flushes, and reads the rest. It gets `5*(L div 6) + L mod 6` codewords, 5 for each full group
and the last bytes as they are, and for `L = 6n` the flush returns 0. -/
def Obligations.PayloadGroupLaw : Prop :=
  ∀ (s : State) (bytes : List Nat), s.port.phase = .idle → s.err = 0 → s.b900.n = 0 → s.b900.acc = 0 →
    (∀ b ∈ bytes, b < 256) →
    ∃ (t : State) (responses : List Word),
      runCommands (payloadCommands bytes) s = .next t ∧
      t.observed = s.observed ++ responses ∧
      responses.length = (payloadCommands bytes).length ∧
      rdregValues (payloadCommands bytes) responses = payloadCodewords bytes ∧
      (payloadCodewords bytes).length = 5 * (bytes.length / 6) + bytes.length % 6 ∧
      t.b900.n = 0 ∧ t.b900.outN.toNat = bytes.length % 6 ∧
      (bytes.length % 6 = 0 → responses.getLast? = some (responseWord 0 true 0))

/-- R26, R141: `B_OUT` and `B_OUTN` are written by a group-completing B900_PUSH, by B900_FLUSH and by SRST and by
no other command, and such a push overwrites them whatever they hold, with no error. -/
def Obligations.BOutWrittenOnlyByConversionFlushReset : Prop :=
  (∀ (i : Instr) (s t : State), exec i s = .next t →
    (t.b900.out ≠ s.b900.out ∨ t.b900.outN ≠ s.b900.outN) →
    i = .srst ∨ (s.err = 0 ∧ (i = .b900Flush ∨ ∃ b, i = .b900Push b ∧ s.b900.n = 5))) ∧
  (∀ (s s' : State) (b : Nat), s.err = 0 → s.b900.n = 5 → s'.err = 0 → s'.b900.n = 5 →
    s'.b900.acc = s.b900.acc →
    ∃ t t', exec (.b900Push b) s = .next t ∧ exec (.b900Push b) s' = .next t' ∧
      t'.b900 = t.b900 ∧ t.err = 0)

/-! ## RS unit -/

/-- R81: RS_INIT with a legal level, with one that is not, and refused. The default parameters have every level
0..8 (R6). -/
def Obligations.RsInitSelectsLevel : Prop :=
  (∀ (w : Word) (lvl : Nat), decode w = .command (.rsInit lvl) ↔
    w &&& 0xFFFFFFF0#32 = 0x30000000#32 ∧ lvl = (w.extractLsb' 0 4).toNat) ∧
  (∀ (s : State) (lvl : Nat), s.err = 0 → lvl ≤ 8 → coefPresent s.params lvl = true →
    exec (.rsInit lvl) s =
      .next (State.answer
        { s with rs := {
            valid := true
            level := BitVec.ofNat 4 lvl
            dcnt := 0
            acc := Vector.replicate 512 0 } }
        true (BitVec.ofNat 24 (2 <<< lvl)))) ∧
  (∀ (s : State) (lvl : Nat), s.err = 0 → (8 < lvl ∨ coefPresent s.params lvl = false) →
    exec (.rsInit lvl) s = .next (State.answer { s with err := 2 } false 0)) ∧
  (∀ (s : State) (lvl : Nat), s.err ≠ 0 → exec (.rsInit lvl) s = .next (s.answer false 0)) ∧
  (∀ s : State, s.err = 0 → coefPresent s.params 2 = true →
    ∃ t, exec (.rsInit 2) s = .next t ∧ readyResponse t = some 0x40000008#32) ∧
  (∀ l, l ≤ 8 → coefPresent defaultParams l = true)

/-- R82: RS_FEED before a level is chosen, with a legal and an illegal codeword, and refused; entries from `K` up
are not written; where `t * a[j] mod 929 = 0`, and so with `t = 0`, an update is a plain shift; the example's values are those of the coefficients
it names. -/
def Obligations.RsFeedAbsorbsCodeword : Prop :=
  (∀ (w : Word) (d : Nat), decode w = .command (.rsFeed d) ↔
    w &&& 0xFFFFFC00#32 = 0x31000000#32 ∧ d = (w.extractLsb' 0 10).toNat) ∧
  (∀ (s : State) (d : Nat), s.err = 0 → s.rs.valid = false →
    exec (.rsFeed d) s = .next (State.answer { s with err := 4 } false 0)) ∧
  (∀ (s : State) (d : Nat), s.err = 0 → s.rs.valid = true → 928 < d →
    exec (.rsFeed d) s = .next (State.answer { s with err := 3 } false 0)) ∧
  (∀ (s : State) (d : Nat), s.err = 0 → s.rs.valid = true → d ≤ 928 →
    exec (.rsFeed d) s =
      .next (State.answer
        { s with rs := { s.rs with
            acc := rsStep s.params s.rs.level.toNat d s.rs.acc
            dcnt := s.rs.dcnt + 1 } }
        false 0)) ∧
  (∀ (s : State) (d : Nat), s.err ≠ 0 → exec (.rsFeed d) s = .next (s.answer false 0)) ∧
  (∀ (p : Params) (l d : Nat) (acc : Vector Codeword 512) (j : Nat), 2 <<< l ≤ j →
    entryAt (rsStep p l d acc) j = entryAt acc j) ∧
  (∀ (p : Params) (l d : Nat) (acc : Vector Codeword 512) (j : Nat), l ≤ 8 →
    (∀ m, (entryAt acc m).toNat ≤ 928) →
    (d + (entryAt acc ((2 <<< l) - 1)).toNat) % 929 * (coefAt p l j).toNat % 929 = 0 →
    j < 2 <<< l →
    entryAt (rsStep p l d acc) j = if j = 0 then 0 else entryAt acc (j - 1)) ∧
  (∀ s : State, s.err = 0 → s.params.coef[0] = [27, 917] → coefPresent s.params 0 = true →
    s.port.phase = .idle →
    ∃ t, runCommands [.rsInit 0, .rsFeed 1] s = .next t ∧
      t.observed = s.observed ++ [0x40000002#32, 0x00000000#32] ∧
      entryAt t.rs.acc 0 = 902 ∧ entryAt t.rs.acc 1 = 12)

/-- R83: RS_RDOUT before a level is chosen, in and out of range, and refused. It changes no state; the result
lies in 0..928, and a zero entry reads as 0. -/
def Obligations.RsRdoutReadsNegatedReversed : Prop :=
  (∀ (w : Word) (i : Nat), decode w = .command (.rsRdout i) ↔
    w &&& 0xFFFFFE00#32 = 0x32000000#32 ∧ i = (w.extractLsb' 0 9).toNat) ∧
  (∀ (s : State) (i : Nat), s.err = 0 → s.rs.valid = false →
    exec (.rsRdout i) s = .next (State.answer { s with err := 4 } false 0)) ∧
  (∀ (s : State) (i : Nat), s.err = 0 → s.rs.valid = true → 2 <<< s.rs.level.toNat ≤ i →
    exec (.rsRdout i) s = .next (State.answer { s with err := 3 } false 0)) ∧
  (∀ (s : State) (i : Nat), s.err = 0 → s.rs.valid = true → i < 2 <<< s.rs.level.toNat →
    ∃ value : Value,
      exec (.rsRdout i) s = .next (s.answer true value) ∧
      ((entryAt s.rs.acc ((2 <<< s.rs.level.toNat) - 1 - i)).toNat ≤ 928 →
        value.toNat =
          (if (entryAt s.rs.acc ((2 <<< s.rs.level.toNat) - 1 - i)).toNat = 0 then 0
           else 929 - (entryAt s.rs.acc ((2 <<< s.rs.level.toNat) - 1 - i)).toNat) ∧
        value.toNat ≤ 928)) ∧
  (∀ (s : State) (i : Nat), s.err ≠ 0 → exec (.rsRdout i) s = .next (s.answer false 0)) ∧
  (∀ s : State, s.err = 0 → s.params.coef[0] = [27, 917] → coefPresent s.params 0 = true →
    s.port.phase = .idle →
    ∃ t, runCommands [.rsInit 0, .rsFeed 1, .rsRdout 0, .rsRdout 1] s = .next t ∧
      t.observed = s.observed ++ [0x40000002#32, 0x00000000#32, 0x40000395#32, 0x4000001B#32])

/-- R84: the descending loop equals the simultaneous update, every result lies in 0..928, and no intermediate
exceeds 20 bits where the operands are codewords. -/
def Obligations.RsStepIsSimultaneousUpdate : Prop :=
  (∀ (p : Params) (l d : Nat) (acc : Vector Codeword 512), l ≤ 8 →
    rsStep p l d acc =
      (List.range (2 <<< l)).reverse.foldl
        (fun v j => v.setIfInBounds j (BitVec.ofNat 10
          (((if j = 0 then 0 else (entryAt v (j - 1)).toNat) + 929 -
            (((d + (entryAt acc ((2 <<< l) - 1)).toNat) % 929) * (coefAt p l j).toNat) % 929) % 929))) acc) ∧
  (∀ (p : Params) (l d : Nat) (acc : Vector Codeword 512) (j : Nat), l ≤ 8 → j < 2 <<< l →
    (entryAt (rsStep p l d acc) j).toNat =
      ((if j = 0 then 0 else (entryAt acc (j - 1)).toNat) + 929 -
        (((d + (entryAt acc ((2 <<< l) - 1)).toNat) % 929) * (coefAt p l j).toNat) % 929) % 929 ∧
    (entryAt (rsStep p l d acc) j).toNat ≤ 928) ∧
  (∀ d top a : Nat, d ≤ 928 → top ≤ 928 → a ≤ 928 →
    d + top ≤ 1856 ∧ ((d + top) % 929) * a ≤ 861184 ∧ 861184 < 2 ^ 20)

/-- R85: the unit computes the source's final correction codeword sequence. After RS_INIT, any list of feeds and
reads, then reading positions 0..K-1: the reads give exactly the source's sequence over the codewords fed, and
reads in between do not end the block. -/
def Obligations.RsUnitComputesSourceCorrections : Prop :=
  ∀ (s : State) (l : Nat) (body : List Instr), s.port.phase = .idle → s.err = 0 → l ≤ 8 →
    coefPresent s.params l = true →
    (∀ i ∈ body, (∃ d, i = .rsFeed d ∧ d ≤ 928) ∨ (∃ n, i = .rsRdout n ∧ n < 2 <<< l)) →
    ∃ (t : State) (before answers : List Word),
      runCommands (.rsInit l :: body ++ (List.range (2 <<< l)).map Instr.rsRdout) s = .next t ∧
      t.observed = s.observed ++ before ++ answers ∧
      before.length = body.length + 1 ∧
      answers =
        (sourceCorrections (fun j => (coefAt s.params l j).toNat) (2 <<< l) (fedCodewords body)).map
          (fun x => responseWord 0 true (BitVec.ofNat 24 x))

/-- R86: after RS_INIT l exactly `K = 2 << l` positions are readable, whatever was fed, and position K raises
OperandRange. -/
def Obligations.CorrectionOutputLength : Prop :=
  ∀ (s : State) (l : Nat) (ds : List Nat), s.port.phase = .idle → s.err = 0 → l ≤ 8 →
    coefPresent s.params l = true → (∀ d ∈ ds, d ≤ 928) →
    ∃ t, runCommands (.rsInit l :: ds.map Instr.rsFeed) s = .next t ∧ t.err = 0 ∧
      (∀ i, i < 2 <<< l → ∃ value, exec (.rsRdout i) t = .next (t.answer true value)) ∧
      (∀ i, 2 <<< l ≤ i → exec (.rsRdout i) t = .next (State.answer { t with err := 3 } false 0))

/-- The single-1 law of spec/95_test_vectors.md 2.5: from a fresh RS_INIT, feeding 1 makes the outputs the
coefficient table reversed, for any coefficients in 0..928. -/
def Obligations.SingleOneReadsCoefficientsReversed : Prop :=
  ∀ (s : State) (l : Nat), s.port.phase = .idle → s.err = 0 → l ≤ 8 → coefPresent s.params l = true →
    LegalParams s.params →
    ∃ t, runCommands [.rsInit l, .rsFeed 1] s = .next t ∧
      ∀ i, i < 2 <<< l →
        exec (.rsRdout i) t =
          .next (t.answer true ((coefAt s.params l ((2 <<< l) - 1 - i)).setWidth 24))

/-- R18: `RS_DCNT` counts the codewords absorbed since the last RS_INIT modulo 2^16, and no result of the RS
computation depends on it. -/
def Obligations.FeedCounterCountsModulo : Prop :=
  (∀ (s : State) (l : Nat) (ds : List Nat), s.port.phase = .idle → s.err = 0 → l ≤ 8 →
    coefPresent s.params l = true → (∀ d ∈ ds, d ≤ 928) →
    ∃ t, runCommands (.rsInit l :: ds.map Instr.rsFeed) s = .next t ∧
      t.rs.dcnt.toNat = ds.length % 65536) ∧
  (∀ (i : Instr) (s : State) (dcnt : BitVec 16), isRs i = true →
    ∃ t t', exec i s = .next t ∧ exec i { s with rs := { s.rs with dcnt := dcnt } } = .next t' ∧
      t'.rs.acc = t.rs.acc ∧ t'.rs.valid = t.rs.valid ∧ t'.rs.level = t.rs.level ∧ t'.err = t.err ∧
      readyResponse t' = readyResponse t)

/-- R15, R16: only a successful RS_INIT and SRST change `RS_VALID` or `RS_LEVEL`; `RS_VALID` stays 1 until reset;
a level is written only if it is 0..8 and has a table. -/
def Obligations.LevelWrittenOnlyByRsInit : Prop :=
  ∀ (i : Instr) (s t : State), exec i s = .next t →
    (t.rs.valid ≠ s.rs.valid ∨ t.rs.level ≠ s.rs.level) →
    i = .srst ∨ ∃ l, i = .rsInit l ∧ s.err = 0 ∧ l ≤ 8 ∧ coefPresent s.params l = true ∧
      t.rs.valid = true ∧ t.rs.level.toNat = l

/-! ## State, units, parameters -/

/-- R11, R16, R19, R22 to R26, R30, R116: every step keeps the legal states. -/
def Obligations.StepKeepsLegalStates : Prop :=
  ∀ s t : State, Legal s → step s = .next t → Legal t

/-- R137: the reset state is legal, and the default parameters respect R7. -/
def Obligations.ResetStateIsLegal : Prop := Legal State.reset ∧ LegalParams State.reset.params

/-- The signal layer keeps the legal states too. -/
def Obligations.ClockEdgeKeepsLegalStates : Prop :=
  ∀ (p : Pins) (s t : State), Legal s → clockEdge p s = .next t → Legal t

/-- R42: a base-30 command reads and writes only `T_PEND` and `T_HI`; a base-900 command only `B_N`, `B_ACC`,
`B_OUTN` and `B_OUT`; an RS command only the RS registers; each may also write `ERR`, by the error mechanism.
What a command leaves alone is its frame; what it reads is said by comparing two states. -/
def Obligations.UnitsShareOnlyErr : Prop :=
  (∀ (i : Instr) (s t : State), isText i = true → exec i s = .next t →
    t.rs = s.rs ∧ t.b900 = s.b900) ∧
  (∀ (i : Instr) (s t : State), isGroup i = true → exec i s = .next t →
    t.rs = s.rs ∧ t.txt = s.txt) ∧
  (∀ (i : Instr) (s t : State), isRs i = true → exec i s = .next t →
    t.txt = s.txt ∧ t.b900 = s.b900) ∧
  (∀ (i : Instr) (s₁ s₂ : State), isText i = true → s₁.err = s₂.err → s₁.txt = s₂.txt →
    ∃ t₁ t₂, exec i s₁ = .next t₁ ∧ exec i s₂ = .next t₂ ∧ t₁.txt = t₂.txt ∧ t₁.err = t₂.err ∧
      readyResponse t₁ = readyResponse t₂) ∧
  (∀ (i : Instr) (s₁ s₂ : State), isGroup i = true → s₁.err = s₂.err → s₁.b900 = s₂.b900 →
    s₁.params = s₂.params →
    ∃ t₁ t₂, exec i s₁ = .next t₁ ∧ exec i s₂ = .next t₂ ∧ t₁.b900 = t₂.b900 ∧ t₁.err = t₂.err ∧
      readyResponse t₁ = readyResponse t₂) ∧
  (∀ (i : Instr) (s₁ s₂ : State), isRs i = true → s₁.err = s₂.err → s₁.rs = s₂.rs →
    s₁.params = s₂.params →
    ∃ t₁ t₂, exec i s₁ = .next t₁ ∧ exec i s₂ = .next t₂ ∧ t₁.rs = t₂.rs ∧ t₁.err = t₂.err ∧
      readyResponse t₁ = readyResponse t₂)

/-- R38, R42: commands of different units may be interleaved in either order: where no error is raised, both
orders leave the same architectural state and each command gets the same response. -/
def Obligations.CommandsOfDifferentUnitsCommute : Prop :=
  ∀ (i j : Instr) (s : State),
    ((isText i = true ∧ isGroup j = true) ∨ (isText i = true ∧ isRs j = true) ∨
      (isGroup i = true ∧ isRs j = true)) →
    ∃ t₁ t₂ u₁ u₂, exec i s = .next t₁ ∧ exec j t₁ = .next t₂ ∧ exec j s = .next u₁ ∧
      exec i u₁ = .next u₂ ∧
      (t₂.err = 0 → t₂.arch = u₂.arch ∧ readyResponse t₁ = readyResponse u₂ ∧
        readyResponse t₂ = readyResponse u₁)

/-- R41, R138: no command, no step, no clock edge and no reset changes the coefficients or their presence, nor
any other parameter. -/
def Obligations.ParametersNeverChange : Prop :=
  (∀ (i : Instr) (s t : State), exec i s = .next t → t.params = s.params) ∧
  (∀ s t : State, step s = .next t → t.params = s.params) ∧
  (∀ (p : Pins) (s t : State), clockEdge p s = .next t → t.params = s.params) ∧
  (∀ s : State, (hardReset s).params = s.params)

/-- R37: RDREG, RS_RDOUT, B900_MODE and NOP change no state unless they raise an error, and a read repeated at
once answers the same. -/
def Obligations.ReadsHaveNoSideEffects : Prop :=
  ∀ (i : Instr) (s : State),
    (i = .nop ∨ (∃ idx, i = .rdreg idx) ∨ (∃ n, i = .rsRdout n) ∨ (∃ len, i = .b900Mode len)) →
    ∃ t, exec i s = .next t ∧ t.rs = s.rs ∧ t.txt = s.txt ∧ t.b900 = s.b900 ∧
      (t.err = s.err ∨ (s.err = 0 ∧ t.err ≠ 0)) ∧
      (t.err = s.err → ∃ u, exec i t = .next u ∧ u.arch = s.arch ∧ readyResponse u = readyResponse t)

/-- R30: the reads of RS_RDOUT determine `C[0..RS_K-1]`; no command observes `C[RS_K..511]`; all other
architectural state is determined by what RDREG reads. -/
def Obligations.WhatTheHostCanObserve : Prop :=
  (∀ s₁ s₂ : State, Legal s₁ → Legal s₂ → s₁.rs.level = s₂.rs.level →
    (∀ i, i < s₁.rs.k → s₁.rs.output i = s₂.rs.output i) →
    ∀ j, j < s₁.rs.k → entryAt s₁.rs.acc j = entryAt s₂.rs.acc j) ∧
  (∀ (i : Instr) (s₁ s₂ : State), s₁.err = s₂.err → s₁.txt = s₂.txt → s₁.b900 = s₂.b900 →
    s₁.params = s₂.params → s₁.rs.valid = s₂.rs.valid → s₁.rs.level = s₂.rs.level →
    s₁.rs.dcnt = s₂.rs.dcnt → (∀ j, j < s₁.rs.k → entryAt s₁.rs.acc j = entryAt s₂.rs.acc j) →
    ∃ t₁ t₂, exec i s₁ = .next t₁ ∧ exec i s₂ = .next t₂ ∧ readyResponse t₁ = readyResponse t₂ ∧
      t₁.err = t₂.err ∧ t₁.txt = t₂.txt ∧ t₁.b900 = t₂.b900 ∧ t₁.rs.valid = t₂.rs.valid ∧
      t₁.rs.level = t₂.rs.level ∧ t₁.rs.dcnt = t₂.rs.dcnt ∧
      (∀ j, j < t₁.rs.k → entryAt t₁.rs.acc j = entryAt t₂.rs.acc j)) ∧
  (∀ s₁ s₂ : State, (∀ idx, regmap s₁ idx = regmap s₂ idx) →
    s₁.err = s₂.err ∧ s₁.rs.valid = s₂.rs.valid ∧ s₁.rs.level = s₂.rs.level ∧
    s₁.rs.dcnt = s₂.rs.dcnt ∧ s₁.txt = s₂.txt ∧ s₁.b900 = s₂.b900)

/-! ## Reset, port and timing -/

/-- R137: the reset state, field by field, and the hardware reset gives it from any state. -/
def Obligations.ResetValues : Prop :=
  (∀ s : State, s = State.reset ∨ (∃ s₀, s = hardReset s₀) →
    s.err = 0 ∧ s.rs.valid = false ∧ s.rs.level = 0 ∧ s.rs.dcnt = 0 ∧
    (∀ j, (h : j < 512) → s.rs.acc[j] = 0) ∧
    s.txt.pend = false ∧ s.txt.hi = 0 ∧ s.b900.n = 0 ∧ s.b900.acc = 0 ∧ s.b900.outN = 0 ∧
    (∀ j, (h : j < 5) → s.b900.out[j] = 0))

/-- R139: SRST reaches the same architectural state as the hardware reset; unlike it, it answers 0x00000000 and
the handshake goes on. -/
def Obligations.SrstMatchesHardReset : Prop :=
  ∀ (s : State) (rest : List HostEvent) (w : Word), s.port.phase = .idle → decode w = .command .srst →
    ∃ t u, step { s with line := .command w :: rest } = .next t ∧
      step { s with line := .hardReset :: rest } = .next u ∧
      t.arch = u.arch ∧ t.arch = State.reset.arch ∧ t.params = s.params ∧ u.params = s.params ∧
      t.observed = s.observed ++ [0x00000000#32] ∧ u.observed = s.observed ∧
      t.port.phase = .idle ∧ t.line = rest ∧ u.line = rest

/-- R136: while `rst_n = 0` the outputs are low, every register is at its reset value, and a command in flight or
a response not taken is discarded without joining the observation; on the first edge after it the block is idle
with `cmd_ready = 1`. -/
def Obligations.HardwareResetDiscardsCommandInFlight : Prop :=
  ∀ (p q : Pins) (s : State), p.rstN = false → q.rstN = true →
    cmdReady p s = false ∧ rspValid p s = false ∧
    ∃ t, clockEdge p s = .next t ∧ t.arch = State.reset.arch ∧ t.port.phase = .idle ∧
      t.observed = s.observed ∧ cmdReady q t = true ∧ rspValid q t = false

/-- R33, R36: from the acceptance of a command the port accepts no other (`cmd_ready = 0`) and shows no response
until `LAT(op)` edges later; until then no architectural register changes; then the response is that of the
command accepted, its whole effect is there, and however many edges pass without the host taking it, it stays
until the edge on which the host does. -/
def Obligations.PortHoldsOneCommandUntilTaken : Prop :=
  ∀ (s : State) (p : Pins) (ps : List Pins), s.port.phase = .idle → s.port.offered = [] →
    p.rstN = true → p.cmdValid = true → (∀ q ∈ ps, q.rstN = true) →
    cmdReady p s = true ∧
    (ps.length < latency s.params (p.cmdData.extractLsb' 24 8) s.rs.k →
      ∃ t, clockEdges (p :: ps) s = .next t ∧ t.arch = s.arch ∧ t.observed = s.observed ∧
        ∀ q : Pins, cmdReady q t = false ∧ rspValid q t = false) ∧
    (ps.length = latency s.params (p.cmdData.extractLsb' 24 8) s.rs.k →
      ∃ t u r, clockEdges (p :: ps) s = .next t ∧ runWord p.cmdData s = .next u ∧
        t.arch = u.arch ∧ t.observed = s.observed ∧ readyResponse u = some r ∧ rspData t = some r ∧
        (∀ qs : List Pins, (∀ x ∈ qs, x.rstN = true ∧ x.rspReady = false) →
          ∃ t', clockEdges qs t = .next t' ∧ t'.arch = t.arch ∧ rspData t' = some r ∧
            t'.observed = t.observed ∧
            (∀ q : Pins, q.rstN = true → cmdReady q t' = false ∧ rspValid q t' = true) ∧
            (∀ q : Pins, q.rstN = true → q.rspReady = true →
              ∃ t'', clockEdge q t' = .next t'' ∧ t''.arch = t.arch ∧ t''.port.phase = .idle ∧
                t''.observed = t.observed ++ [r])))

/-- R10, R32, R33, R142: the signal layer refines the transaction step. A command offered at an idle port,
`LAT(op)` further edges with anything on the pins but reset, then an edge on which the response is taken: the
state is that of one `step` on the command, but for the words the host offers next and the host's line. -/
def Obligations.ClockedTransactionIsOneStep : Prop :=
  ∀ (s : State) (p q : Pins) (ps : List Pins) (rest : List HostEvent), s.port = Port.reset →
    p.rstN = true → p.cmdValid = true → (∀ x ∈ ps, x.rstN = true) →
    ps.length = latency s.params (p.cmdData.extractLsb' 24 8) s.rs.k →
    q.rstN = true → q.rspReady = true →
    ∃ t u, clockEdges (p :: ps ++ [q]) s = .next t ∧
      step { s with line := .command p.cmdData :: rest } = .next u ∧
      { t with port := { t.port with offered := [] }, line := rest } = u

/-- R144 with I6 and I7: where the host changes the word it offers before acceptance, one of the words offered is
accepted, whatever the free choice is; a word it keeps stable is the word accepted; where it withdraws
`cmd_valid` nothing happens. -/
def Obligations.AcceptedWordIsOneOffered : Prop :=
  (∀ (s : State) (w : Word) (later : List Word) (rest : List HostEvent), s.port.phase = .idle →
    s.line = .unstable w later :: rest →
    ∃ w' ∈ w :: later, ∃ s' : State, s'.arch = s.arch ∧ s'.params = s.params ∧
      s'.observed = s.observed ∧ s'.index = s.index ∧ s'.line = rest ∧ s'.port = s.port ∧
      step s = deliver (runWord w' s')) ∧
  (∀ (s : State) (w : Word) (later : List Word), (∀ x ∈ later, x = w) →
    acceptedWord w later s = w ∧ afterChoice w later s = s) ∧
  (∀ (s : State) (w : Word) (rest : List HostEvent), s.port.phase = .idle →
    s.line = .withdrawn w :: rest → step s = .next { s with line := rest }) ∧
  (∀ (s : State) (p : Pins), s.port.phase = .idle → p.rstN = true → p.cmdValid = false →
    ∃ t, clockEdge p s = .next t ∧ t.arch = s.arch ∧ t.port = Port.reset ∧ t.observed = s.observed) ∧
  (∀ (s : State) (p : Pins), s.port.phase = .idle → p.rstN = true → p.cmdValid = true →
    ∃ w ∈ s.port.offered ++ [p.cmdData], ∃ t, clockEdge p s = .next t ∧ t.arch = s.arch ∧
      t.observed = s.observed ∧ t.port.offered = [] ∧
      t.port.phase = .busy w (latency s.params (w.extractLsb' 24 8) s.rs.k))

/-- R142: every latency is at least 1 and depends on nothing but the opcode and, for RS_FEED and RS_INIT, on
`RS_K`. The shape of the table is the model's (assumption 6). -/
def Obligations.LatencyAtLeastOneCycle : Prop :=
  (∀ (p : Params) (op : BitVec 8) (k : Nat), 1 ≤ latency p op k) ∧
  (∀ (p : Params) (op : BitVec 8) (k k' : Nat), op ≠ 0x30 → op ≠ 0x31 → latency p op k = latency p op k') ∧
  (∀ (p : Params) (op : BitVec 8) (k n : Nat), (op = 0x30 ∨ op = 0x31) →
    latency { p with latency := ⟨op, k, n⟩ :: p.latency } op k = n + 1)

/-- R146, R12: the run of `n` command words from a state with an idle port gives exactly `n` responses and
advances the command index by `n`; a run whose responses all have `ERRF = 0` ends with no error latched. -/
def Obligations.RunObservesOneResponsePerCommand : Prop :=
  ∀ (s : State) (ws : List Word), s.port.phase = .idle →
    ∃ (t : State) (responses : List Word), runWords ws s = .next t ∧
      t.observed = s.observed ++ responses ∧ responses.length = ws.length ∧
      t.index = s.index + ws.length ∧ t.port.phase = .idle ∧ t.line = [] ∧
      (s.err = 0 → succeeded responses → t.err = 0) ∧
      (∀ k, k < ws.length → ∃ u, runWords (ws.take k) s = .next u ∧
        u.observed = s.observed ++ responses.take k)

/-- R128: with no command the block is idle with its state held. -/
def Obligations.IdleBlockHoldsState : Prop :=
  (∀ s : State, s.port.phase = .idle → s.line = [] → step s = .next s) ∧
  (∀ (s : State) (p : Pins), s.port = Port.reset → p.rstN = true → p.cmdValid = false →
    clockEdge p s = .next s)

/-! ## Assembler -/

/-- R55: the expansions of the pseudo-instructions. -/
def Obligations.PseudoInstructionExpansions : Prop :=
  pseudoExpand .rdstat = some [.rdreg 0x00] ∧
  (∀ a b, pseudoExpand (.txtPair a b) = some [.txtPush a, .txtPush b]) ∧
  (∀ b0 b1 b2 b3 b4 b5, pseudoExpand (.b900Group b0 b1 b2 b3 b4 b5) =
    some [.b900Push b0, .b900Push b1, .b900Push b2, .b900Push b3, .b900Push b4, .b900Push b5]) ∧
  (∀ n, 1 ≤ n → n ≤ 5 → ∃ is, pseudoExpand (.b900Read n) = some is ∧ is.length = n ∧
    ∀ j, j < n → is[j]? = some (.rdreg (0x08 + j))) ∧
  (∀ l, l ≤ 8 → ∃ is, pseudoExpand (.rsReadall l) = some is ∧ is.length = 2 <<< l ∧
    ∀ j, j < 2 <<< l → is[j]? = some (.rsRdout j))

/-- R54: the assembler rejects an operand that does not fit its sub-field and accepts one that fits, even out of
its legal range; what it accepts decodes to the command written. -/
def Obligations.AssemblerAcceptsWhatFits : Prop :=
  (∀ i : Instr, ¬ i.WellFormed → assemble i = none) ∧
  (∀ i : Instr, i.WellFormed → ∃ w, assemble i = some w ∧ decode w = .command i) ∧
  assemble (.txtPush 31) = some 0x1000001F#32 ∧ assemble (.txtPush 32) = none ∧
  assemble (.rsInit 9) = some 0x30000009#32 ∧
  assembleLine "RS_FEED 913 ; comment" = some [0x31000391#32] ∧
  assembleLine "RDREG 0x08" = some [0x02000008#32]
end

