-- ==== Sys2Proof/Laws/Decode.lean ====
section
/-! SUPPORT. Masks as divisions: a word matches a row of spec/30_encoding.md R49 exactly where its high bits are
the row's number, so decoding questions become arithmetic on `w.toNat`. -/

namespace Sys2Proof

/-- Masking with ones from bit `k` up clears the low `k` bits. -/
theorem and_highMask (w : Word) (k : Nat) : w &&& (BitVec.allOnes 32 <<< k) = (w >>> k) <<< k := by
  ext i hi
  simp only [BitVec.getElem_and, BitVec.getElem_shiftLeft, BitVec.getElem_allOnes, BitVec.getElem_ushiftRight]
  by_cases h : i < k
  · simp [h]
  · have h' : k + (i - k) = i := by omega
    simp [h, h', BitVec.getLsbD_eq_getElem hi]

/-- A masked comparison is a comparison of the high bits' number. -/
theorem masked_eq_iff (w : Word) (k c : Nat) (hc : c * 2 ^ k < 2 ^ 32) :
    w &&& (BitVec.allOnes 32 <<< k) = BitVec.ofNat 32 (c * 2 ^ k) ↔ w.toNat / 2 ^ k = c := by
  have hpos : 0 < 2 ^ k := Nat.two_pow_pos k
  have hle : w.toNat / 2 ^ k * 2 ^ k ≤ w.toNat := Nat.div_mul_le_self _ _
  have hw := w.isLt
  rw [and_highMask]
  constructor
  · intro h
    have := congrArg BitVec.toNat h
    simp only [BitVec.toNat_shiftLeft, BitVec.toNat_ushiftRight, BitVec.toNat_ofNat, Nat.shiftLeft_eq,
      Nat.shiftRight_eq_div_pow] at this
    rw [Nat.mod_eq_of_lt (by omega), Nat.mod_eq_of_lt hc] at this
    exact Nat.eq_of_mul_eq_mul_right hpos this
  · intro h
    apply BitVec.eq_of_toNat_eq
    simp only [BitVec.toNat_shiftLeft, BitVec.toNat_ushiftRight, BitVec.toNat_ofNat, Nat.shiftLeft_eq,
      Nat.shiftRight_eq_div_pow]
    rw [h]

/-- The operand field as a remainder. -/
theorem operandField_eq (n : Nat) (w : Word) : operandField n w = w.toNat % 2 ^ n := by
  simp [operandField, BitVec.extractLsb'_toNat]

theorem opcodeOf_toNat (w : Word) : (opcodeOf w).toNat = w.toNat / 2 ^ 24 := by
  have := w.isLt
  simp only [opcodeOf, BitVec.extractLsb'_toNat, Nat.shiftRight_eq_div_pow]
  omega

theorem rowNop_hits (w : Word) : rowNop.hits w = true ↔ w.toNat = 0 := by
  simpa [EncRow.hits, rowNop] using masked_eq_iff w 0 0 (by decide)

theorem rowSrst_hits (w : Word) : rowSrst.hits w = true ↔ w.toNat = 0x01000000 := by
  simpa [EncRow.hits, rowSrst] using masked_eq_iff w 0 0x01000000 (by decide)

theorem rowRdreg_hits (w : Word) : rowRdreg.hits w = true ↔ w.toNat / 2 ^ 8 = 0x020000 := by
  simpa [EncRow.hits, rowRdreg] using masked_eq_iff w 8 0x020000 (by decide)

theorem rowTxtPush_hits (w : Word) : rowTxtPush.hits w = true ↔ w.toNat / 2 ^ 5 = 0x800000 := by
  simpa [EncRow.hits, rowTxtPush] using masked_eq_iff w 5 0x800000 (by decide)

theorem rowTxtFlush_hits (w : Word) : rowTxtFlush.hits w = true ↔ w.toNat = 0x11000000 := by
  simpa [EncRow.hits, rowTxtFlush] using masked_eq_iff w 0 0x11000000 (by decide)

theorem rowB900Push_hits (w : Word) : rowB900Push.hits w = true ↔ w.toNat / 2 ^ 8 = 0x200000 := by
  simpa [EncRow.hits, rowB900Push] using masked_eq_iff w 8 0x200000 (by decide)

theorem rowB900Flush_hits (w : Word) : rowB900Flush.hits w = true ↔ w.toNat = 0x21000000 := by
  simpa [EncRow.hits, rowB900Flush] using masked_eq_iff w 0 0x21000000 (by decide)

theorem rowB900Mode_hits (w : Word) : rowB900Mode.hits w = true ↔ w.toNat / 2 ^ 24 = 0x22 := by
  simpa [EncRow.hits, rowB900Mode] using masked_eq_iff w 24 0x22 (by decide)

theorem rowRsInit_hits (w : Word) : rowRsInit.hits w = true ↔ w.toNat / 2 ^ 4 = 0x3000000 := by
  simpa [EncRow.hits, rowRsInit] using masked_eq_iff w 4 0x3000000 (by decide)

theorem rowRsFeed_hits (w : Word) : rowRsFeed.hits w = true ↔ w.toNat / 2 ^ 10 = 0xC4000 := by
  simpa [EncRow.hits, rowRsFeed] using masked_eq_iff w 10 0xC4000 (by decide)

theorem rowRsRdout_hits (w : Word) : rowRsRdout.hits w = true ↔ w.toNat / 2 ^ 9 = 0x190000 := by
  simpa [EncRow.hits, rowRsRdout] using masked_eq_iff w 9 0x190000 (by decide)

/-- A word built from an opcode and an operand below it, as a number. -/
theorem append_toNat {m n : Nat} (x : BitVec m) (y : BitVec n) :
    (x ++ y).toNat = x.toNat * 2 ^ n + y.toNat := by
  rw [BitVec.toNat_append, ← Nat.shiftLeft_add_eq_or_of_lt y.isLt, Nat.shiftLeft_eq]

/-- The number of a command's word: opcode, then operand (R46, R48). -/
theorem encode_toNat (i : Instr) : (encode i).toNat =
    match i with
    | .nop => 0x00000000
    | .srst => 0x01000000
    | .rdreg idx => 0x02000000 + idx % 2 ^ 8
    | .txtPush v => 0x10000000 + v % 2 ^ 5
    | .txtFlush => 0x11000000
    | .b900Push b => 0x20000000 + b % 2 ^ 8
    | .b900Flush => 0x21000000
    | .b900Mode len => 0x22000000 + len % 2 ^ 24
    | .rsInit lvl => 0x30000000 + lvl % 2 ^ 4
    | .rsFeed d => 0x31000000 + d % 2 ^ 10
    | .rsRdout i => 0x32000000 + i % 2 ^ 9 := by
  cases i <;> simp only [encode, append_toNat, BitVec.toNat_ofNat] <;> first | rfl | omega

/-- The decoder with every row's test as arithmetic. -/
theorem decode_eq (w : Word) : decode w =
    if w.toNat = 0 then .command .nop
    else if w.toNat = 0x01000000 then .command .srst
    else if w.toNat / 2 ^ 8 = 0x020000 then .command (.rdreg (w.toNat % 2 ^ 8))
    else if w.toNat / 2 ^ 5 = 0x800000 then .command (.txtPush (w.toNat % 2 ^ 5))
    else if w.toNat = 0x11000000 then .command .txtFlush
    else if w.toNat / 2 ^ 8 = 0x200000 then .command (.b900Push (w.toNat % 2 ^ 8))
    else if w.toNat = 0x21000000 then .command .b900Flush
    else if w.toNat / 2 ^ 24 = 0x22 then .command (.b900Mode (w.toNat % 2 ^ 24))
    else if w.toNat / 2 ^ 4 = 0x3000000 then .command (.rsInit (w.toNat % 2 ^ 4))
    else if w.toNat / 2 ^ 10 = 0xC4000 then .command (.rsFeed (w.toNat % 2 ^ 10))
    else if w.toNat / 2 ^ 9 = 0x190000 then .command (.rsRdout (w.toNat % 2 ^ 9))
    else if assignedOpcodes.contains (opcodeOf w) then .illegal .reservedBitSet
    else .illegal .unassignedOpcode := by
  simp only [decode, rowNop_hits, rowSrst_hits, rowRdreg_hits, rowTxtPush_hits, rowTxtFlush_hits,
    rowB900Push_hits, rowB900Flush_hits, rowB900Mode_hits, rowRsInit_hits, rowRsFeed_hits,
    rowRsRdout_hits, operandField_eq]

/-- The numbers of the words of a command: its row's number above its operand. -/
def Instr.HasNumber (i : Instr) (n : Nat) : Prop :=
  match i with
  | .nop => n = 0
  | .srst => n = 0x01000000
  | .rdreg idx => n / 2 ^ 8 = 0x020000 ∧ idx = n % 2 ^ 8
  | .txtPush v => n / 2 ^ 5 = 0x800000 ∧ v = n % 2 ^ 5
  | .txtFlush => n = 0x11000000
  | .b900Push b => n / 2 ^ 8 = 0x200000 ∧ b = n % 2 ^ 8
  | .b900Flush => n = 0x21000000
  | .b900Mode len => n / 2 ^ 24 = 0x22 ∧ len = n % 2 ^ 24
  | .rsInit lvl => n / 2 ^ 4 = 0x3000000 ∧ lvl = n % 2 ^ 4
  | .rsFeed d => n / 2 ^ 10 = 0xC4000 ∧ d = n % 2 ^ 10
  | .rsRdout i => n / 2 ^ 9 = 0x190000 ∧ i = n % 2 ^ 9

/-- One test of the decoder's chain. -/
theorem command_of_test {c : Prop} [Decidable c] {i j : Instr} {rest : Decoded}
    (h : (if c then .command j else rest) = Decoded.command i) : (c ∧ i = j) ∨ rest = .command i := by
  by_cases hc : c
  · rw [if_pos hc] at h; injection h with h; exact .inl ⟨hc, h.symm⟩
  · rw [if_neg hc] at h; exact .inr h

/-- What a word that decodes to a command looks like. -/
theorem hasNumber_of_decode {w : Word} {i : Instr} (h : decode w = .command i) : i.HasNumber w.toNat := by
  rw [decode_eq] at h
  rcases command_of_test h with ⟨hc, rfl⟩ | h
  · exact hc
  rcases command_of_test h with ⟨hc, rfl⟩ | h
  · exact hc
  rcases command_of_test h with ⟨hc, rfl⟩ | h
  · exact ⟨hc, rfl⟩
  rcases command_of_test h with ⟨hc, rfl⟩ | h
  · exact ⟨hc, rfl⟩
  rcases command_of_test h with ⟨hc, rfl⟩ | h
  · exact hc
  rcases command_of_test h with ⟨hc, rfl⟩ | h
  · exact ⟨hc, rfl⟩
  rcases command_of_test h with ⟨hc, rfl⟩ | h
  · exact hc
  rcases command_of_test h with ⟨hc, rfl⟩ | h
  · exact ⟨hc, rfl⟩
  rcases command_of_test h with ⟨hc, rfl⟩ | h
  · exact ⟨hc, rfl⟩
  rcases command_of_test h with ⟨hc, rfl⟩ | h
  · exact ⟨hc, rfl⟩
  rcases command_of_test h with ⟨hc, rfl⟩ | h
  · exact ⟨hc, rfl⟩
  · split at h <;> cases h

/-- The rows exclude each other: a word of a row's number decodes to that row's command. -/
theorem decode_of_hasNumber {w : Word} {i : Instr} (h : i.HasNumber w.toNat) : decode w = .command i := by
  rw [decode_eq]
  generalize w.toNat = n at h
  cases i <;> simp only [Instr.HasNumber] at h
  case nop | srst | txtFlush | b900Flush =>
    repeat rw [if_neg (by omega)]
    exact if_pos h
  case rdreg | txtPush | b900Push | b900Mode | rsInit | rsFeed | rsRdout =>
    obtain ⟨h, rfl⟩ := h
    repeat rw [if_neg (by omega)]
    exact if_pos h

end Sys2Proof
end

