-- ==== Sys2Proof/Laws/State.lean ====
section
/-! SUPPORT. One lemma per field per update of the state: the end of a command, the resets, the host's taking of
a response, and the signal layer's bookkeeping. -/

namespace Sys2Proof.Machine

section Answer
variable (s : State) (valid : Bool) (value : Value)

@[simp] theorem answer_err : (s.answer valid value).err = s.err := rfl
@[simp] theorem answer_rs : (s.answer valid value).rs = s.rs := rfl
@[simp] theorem answer_txt : (s.answer valid value).txt = s.txt := rfl
@[simp] theorem answer_b900 : (s.answer valid value).b900 = s.b900 := rfl
@[simp] theorem answer_phase :
    (s.answer valid value).port.phase = .done (responseWord s.err valid value) := rfl
@[simp] theorem answer_offered : (s.answer valid value).port.offered = s.port.offered := rfl
@[simp] theorem answer_index : (s.answer valid value).index = s.index + 1 := rfl
@[simp] theorem answer_observed : (s.answer valid value).observed = s.observed := rfl
@[simp] theorem answer_line : (s.answer valid value).line = s.line := rfl
@[simp] theorem answer_freeCount : (s.answer valid value).freeCount = s.freeCount := rfl
@[simp] theorem answer_params : (s.answer valid value).params = s.params := rfl
@[simp] theorem answer_arch : (s.answer valid value).arch = s.arch := rfl
@[simp] theorem answer_ready :
    readyResponse (s.answer valid value) = some (responseWord s.err valid value) := rfl

end Answer

section Resets
variable (s : State)

@[simp] theorem toResetState_err : s.toResetState.err = 0 := rfl
@[simp] theorem toResetState_rs : s.toResetState.rs = RsUnit.reset := rfl
@[simp] theorem toResetState_txt : s.toResetState.txt = Base30Unit.reset := rfl
@[simp] theorem toResetState_b900 : s.toResetState.b900 = Base900Unit.reset := rfl
@[simp] theorem toResetState_port : s.toResetState.port = s.port := rfl
@[simp] theorem toResetState_index : s.toResetState.index = s.index := rfl
@[simp] theorem toResetState_observed : s.toResetState.observed = s.observed := rfl
@[simp] theorem toResetState_line : s.toResetState.line = s.line := rfl
@[simp] theorem toResetState_freeCount : s.toResetState.freeCount = s.freeCount := rfl
@[simp] theorem toResetState_params : s.toResetState.params = s.params := rfl

@[simp] theorem hardReset_err : (hardReset s).err = 0 := rfl
@[simp] theorem hardReset_rs : (hardReset s).rs = RsUnit.reset := rfl
@[simp] theorem hardReset_txt : (hardReset s).txt = Base30Unit.reset := rfl
@[simp] theorem hardReset_b900 : (hardReset s).b900 = Base900Unit.reset := rfl
@[simp] theorem hardReset_port : (hardReset s).port = Port.reset := rfl
@[simp] theorem hardReset_index : (hardReset s).index = s.index := rfl
@[simp] theorem hardReset_observed : (hardReset s).observed = s.observed := rfl
@[simp] theorem hardReset_line : (hardReset s).line = s.line := rfl
@[simp] theorem hardReset_freeCount : (hardReset s).freeCount = s.freeCount := rfl
@[simp] theorem hardReset_params : (hardReset s).params = s.params := rfl

@[simp] theorem portReset_phase : Port.reset.phase = .idle := rfl
@[simp] theorem portReset_offered : Port.reset.offered = [] := rfl

end Resets

section Arch
variable (s : State)

@[simp] theorem arch_err : s.arch.err = s.err := rfl
@[simp] theorem arch_rs : s.arch.rs = s.rs := rfl
@[simp] theorem arch_txt : s.arch.txt = s.txt := rfl
@[simp] theorem arch_b900 : s.arch.b900 = s.b900 := rfl

/-- Two records agree where their four parts do. -/
theorem arch_ext {s t : State} (he : s.err = t.err) (hr : s.rs = t.rs) (ht : s.txt = t.txt)
    (hb : s.b900 = t.b900) : s.arch = t.arch := by
  simp [State.arch, he, hr, ht, hb]

/-- The architectural record does not see the port, the bookkeeping or the parameters. -/
@[simp] theorem arch_of_bookkeeping (port : Port) (index : Nat) (observed : List Word)
    (line : List HostEvent) (freeCount : Nat) (params : Params) :
    State.arch ⟨s.err, s.rs, s.txt, s.b900, port, index, observed, line, freeCount, params⟩ = s.arch := rfl

end Arch

section Take
variable (s : State)

@[simp] theorem takeResponse_err : (takeResponse s).err = s.err := by
  unfold takeResponse; split <;> rfl
@[simp] theorem takeResponse_rs : (takeResponse s).rs = s.rs := by
  unfold takeResponse; split <;> rfl
@[simp] theorem takeResponse_txt : (takeResponse s).txt = s.txt := by
  unfold takeResponse; split <;> rfl
@[simp] theorem takeResponse_b900 : (takeResponse s).b900 = s.b900 := by
  unfold takeResponse; split <;> rfl
@[simp] theorem takeResponse_index : (takeResponse s).index = s.index := by
  unfold takeResponse; split <;> rfl
@[simp] theorem takeResponse_line : (takeResponse s).line = s.line := by
  unfold takeResponse; split <;> rfl
@[simp] theorem takeResponse_freeCount : (takeResponse s).freeCount = s.freeCount := by
  unfold takeResponse; split <;> rfl
@[simp] theorem takeResponse_params : (takeResponse s).params = s.params := by
  unfold takeResponse; split <;> rfl
@[simp] theorem takeResponse_arch : (takeResponse s).arch = s.arch := by
  unfold takeResponse; split <;> rfl

/-- Taking the response with which a command ended. -/
@[simp] theorem takeResponse_answer (valid : Bool) (value : Value) :
    takeResponse (s.answer valid value) =
      { s with
        port := { s.port with phase := .idle }
        index := s.index + 1
        observed := s.observed ++ [responseWord s.err valid value] } := rfl

@[simp] theorem deliver_next (t : State) : deliver (.next t) = .next (takeResponse t) := rfl

end Take

section Signal
variable (p : Pins) (s : State)

@[simp] theorem noteOffer_arch : (noteOffer p s).arch = s.arch := rfl
@[simp] theorem noteOffer_err : (noteOffer p s).err = s.err := rfl
@[simp] theorem noteOffer_rs : (noteOffer p s).rs = s.rs := rfl
@[simp] theorem noteOffer_txt : (noteOffer p s).txt = s.txt := rfl
@[simp] theorem noteOffer_b900 : (noteOffer p s).b900 = s.b900 := rfl
@[simp] theorem noteOffer_phase : (noteOffer p s).port.phase = s.port.phase := rfl
@[simp] theorem noteOffer_index : (noteOffer p s).index = s.index := rfl
@[simp] theorem noteOffer_observed : (noteOffer p s).observed = s.observed := rfl
@[simp] theorem noteOffer_line : (noteOffer p s).line = s.line := rfl
@[simp] theorem noteOffer_freeCount : (noteOffer p s).freeCount = s.freeCount := rfl
@[simp] theorem noteOffer_params : (noteOffer p s).params = s.params := rfl

/-- A free choice changes nothing but its own counter. -/
theorem afterChoice_eq (w : Word) (later : List Word) :
    ∃ n, afterChoice w later s = { s with freeCount := n } := by
  unfold afterChoice
  split
  · exact ⟨s.freeCount, rfl⟩
  · exact ⟨s.freeCount + 1, rfl⟩

theorem edgeChoice_eq : ∃ n, edgeChoice p s = { s with freeCount := n } := by
  unfold edgeChoice
  split
  · exact ⟨s.freeCount, rfl⟩
  · exact afterChoice_eq s _ _

/-- Accepting a command writes the port and, where the choice was free, its counter. -/
theorem acceptCommand_eq :
    ∃ n, acceptCommand p s =
      { s with
        port := {
          phase := .busy (edgeWord p s) (latency s.params (opcodeOf (edgeWord p s)) s.rs.k)
          offered := [] }
        freeCount := n } := by
  obtain ⟨n, hn⟩ := edgeChoice_eq p s
  exact ⟨n, by simp [acceptCommand, hn]⟩

end Signal

end Sys2Proof.Machine
end

