-- ==== Sys2Proof/Laws/Ops.lean ====
section
/-! SUPPORT. What each shared operation can do, said once; and what one command can do (`exec_ends`,
`runWord_ends`), from which the statements about every command follow. -/

namespace Sys2Proof.Machine

theorem respond_eq (valid : Bool) (value : Value) (s : State) :
    respond valid value s = .next (s.answer valid value) := rfl

theorem raise_eq (e : ErrorCode) (s : State) :
    raise e s = .next (State.answer { s with err := e.code } false 0) := rfl

/-- A code is never 0: raising latches an error. -/
theorem code_ne_zero (e : ErrorCode) : e.code ≠ 0 := by cases e <;> decide

theorem code_le_four (e : ErrorCode) : e.code.toNat ≤ 4 := by cases e <;> decide

theorem unlessRefused_of_clear {s : State} (h : s.err = 0) (run : Result) : unlessRefused s run = run := by
  rw [unlessRefused, if_pos h]

theorem unlessRefused_of_latched {s : State} (h : s.err ≠ 0) (run : Result) :
    unlessRefused s run = .next (s.answer false 0) := by
  rw [unlessRefused, if_neg h, respond_eq]

theorem raiseIfClear_of_clear {s : State} (h : s.err = 0) (e : ErrorCode) :
    raiseIfClear e s = .next (State.answer { s with err := e.code } false 0) := by
  rw [raiseIfClear, if_pos h, raise_eq]

theorem raiseIfClear_of_latched {s : State} (h : s.err ≠ 0) (e : ErrorCode) :
    raiseIfClear e s = .next (s.answer false 0) := by
  rw [raiseIfClear, if_neg h, respond_eq]

/-- Every way a command that is not a reset can end: it answers and leaves `ERR` alone, or raises from a clear
`ERR`. `t` is the state its effect on the units leaves. -/
inductive Ends (s : State) : Result → Prop where
  /-- The command answered without an error; only unit registers may differ from `s`, and where `ERR` was
  latched none does. -/
  | answered (rs : RsUnit) (txt : Base30Unit) (b900 : Base900Unit) (valid : Bool) (value : Value)
      (kept : s.err ≠ 0 → rs = s.rs ∧ txt = s.txt ∧ b900 = s.b900) :
      Ends s (.next (State.answer { s with rs := rs, txt := txt, b900 := b900 } valid value))
  /-- The command raised `e`, and nothing else. -/
  | raised (e : ErrorCode) (clear : s.err = 0) :
      Ends s (.next (State.answer { s with err := e.code } false 0))

/-- A command that changes no unit register. -/
theorem Ends.unchanged (s : State) (valid : Bool) (value : Value) :
    Ends s (.next (s.answer valid value)) :=
  .answered s.rs s.txt s.b900 valid value (fun _ => ⟨rfl, rfl, rfl⟩)

theorem Ends.of_raiseIfClear (s : State) (e : ErrorCode) : Ends s (raiseIfClear e s) := by
  by_cases h : s.err = 0
  · rw [raiseIfClear_of_clear h]; exact .raised e h
  · rw [raiseIfClear_of_latched h]; exact .unchanged s false 0

theorem Ends.of_unlessRefused {s : State} {run : Result} (h : s.err = 0 → Ends s run) :
    Ends s (unlessRefused s run) := by
  by_cases hs : s.err = 0
  · rw [unlessRefused_of_clear hs]; exact h hs
  · rw [unlessRefused_of_latched hs]; exact .unchanged s false 0

theorem completePair_eq (lo : Nat) (s : State) :
    completePair lo s =
      .next (State.answer { s with txt := Base30Unit.clear } true
        (BitVec.ofNat 24 (pairCodeword s.txt.hi.toNat lo))) := rfl

/-- Every command but SRST ends in one of the two ways. -/
theorem exec_ends {i : Instr} (hi : i ≠ .srst) (s : State) : Ends s (exec i s) := by
  cases i with
  | srst => exact absurd rfl hi
  | nop => exact .unchanged s false 0
  | rdreg idx =>
    show Ends s (execRdreg idx s)
    unfold execRdreg
    split
    · exact .unchanged s true _
    · exact .of_raiseIfClear s _
  | txtPush v =>
    refine .of_unlessRefused fun h => ?_
    split
    · split
      · exact .answered s.rs Base30Unit.clear s.b900 true _ (absurd h)
      · exact .answered s.rs (Base30Unit.hold v) s.b900 false 0 (absurd h)
    · exact .raised _ h
  | txtFlush =>
    refine .of_unlessRefused fun h => ?_
    split
    · exact .answered s.rs Base30Unit.clear s.b900 true _ (absurd h)
    · exact .unchanged s false 0
  | b900Push b =>
    refine .of_unlessRefused fun h => ?_
    split
    · exact .answered s.rs s.txt (s.b900.convert b) true 5 (absurd h)
    · exact .answered s.rs s.txt (s.b900.accumulate b) false 0 (absurd h)
  | b900Flush => exact .of_unlessRefused fun h => .answered s.rs s.txt s.b900.flush true _ (absurd h)
  | b900Mode len => exact .of_unlessRefused fun _ => .unchanged s true _
  | rsInit lvl =>
    refine .of_unlessRefused fun h => ?_
    split
    · exact .answered (RsUnit.start lvl) s.txt s.b900 true _ (absurd h)
    · exact .raised _ h
  | rsFeed d =>
    refine .of_unlessRefused fun h => ?_
    split
    · split
      · exact .answered (s.rs.feed s.params d) s.txt s.b900 false 0 (absurd h)
      · exact .raised _ h
    · exact .raised _ h
  | rsRdout i =>
    refine .of_unlessRefused fun h => ?_
    split
    · split
      · exact .unchanged s true _
      · exact .raised _ h
    · exact .raised _ h

/-- SRST, in every state. -/
theorem exec_srst (s : State) : exec .srst s = .next (s.toResetState.answer false 0) := rfl

/-- Every word but SRST's ends in one of the two ways. -/
theorem runWord_ends {w : Word} (hw : decode w ≠ .command .srst) (s : State) : Ends s (runWord w s) := by
  unfold runWord
  cases hd : decode w with
  | command i => exact exec_ends (fun h => hw (by rw [hd, h])) s
  | illegal why => exact .of_raiseIfClear s _

theorem runWord_command {w : Word} {i : Instr} (h : decode w = .command i) (s : State) :
    runWord w s = exec i s := by simp [runWord, h]

theorem runWord_illegal {w : Word} {why : Illegal} (h : decode w = .illegal why) (s : State) :
    runWord w s = execIllegal s := by simp [runWord, h]

/-- What every word leaves alone, and that it ends in an answer. `u` is `s` but for the architectural record. -/
theorem runWord_answers (w : Word) (s : State) :
    ∃ (err : BitVec 4) (rs : RsUnit) (txt : Base30Unit) (b900 : Base900Unit) (valid : Bool) (value : Value),
      runWord w s =
        .next (State.answer { s with err := err, rs := rs, txt := txt, b900 := b900 } valid value) := by
  by_cases hw : decode w = .command .srst
  · exact ⟨0, RsUnit.reset, Base30Unit.reset, Base900Unit.reset, false, 0, by
      rw [runWord_command hw, exec_srst]; rfl⟩
  · have h := runWord_ends hw s
    generalize runWord w s = r at h
    cases h with
    | answered rs txt b900 valid value _ => exact ⟨s.err, rs, txt, b900, valid, value, rfl⟩
    | raised e _ => exact ⟨e.code, s.rs, s.txt, s.b900, false, 0, rfl⟩

end Sys2Proof.Machine
end

