-- ==== Sys2Proof/Laws/PerInstr.lean ====
section
/-! SUPPORT. EncodedRow, per instruction: the word of a command matches the command's own row of
spec/30_encoding.md R49, whatever its operand, and no operand reaches the opcode or a reserved bit. -/

namespace Sys2Proof.Laws.EncodedRow

/-- The word of `i` matches `i`'s row. -/
def Statement (i : Instr) : Prop := i.row.hits (encode i) = true

theorem nop : Statement .nop := by
  simp only [Statement, Instr.row, rowNop_hits, encode_toNat]

theorem srst : Statement .srst := by
  simp only [Statement, Instr.row, rowSrst_hits, encode_toNat]

theorem rdreg (idx : Nat) : Statement (.rdreg idx) := by
  simp only [Statement, Instr.row, rowRdreg_hits, encode_toNat]; omega

theorem txtPush (v : Nat) : Statement (.txtPush v) := by
  simp only [Statement, Instr.row, rowTxtPush_hits, encode_toNat]; omega

theorem txtFlush : Statement .txtFlush := by
  simp only [Statement, Instr.row, rowTxtFlush_hits, encode_toNat]

theorem b900Push (b : Nat) : Statement (.b900Push b) := by
  simp only [Statement, Instr.row, rowB900Push_hits, encode_toNat]; omega

theorem b900Flush : Statement .b900Flush := by
  simp only [Statement, Instr.row, rowB900Flush_hits, encode_toNat]

theorem b900Mode (len : Nat) : Statement (.b900Mode len) := by
  simp only [Statement, Instr.row, rowB900Mode_hits, encode_toNat]; omega

theorem rsInit (lvl : Nat) : Statement (.rsInit lvl) := by
  simp only [Statement, Instr.row, rowRsInit_hits, encode_toNat]; omega

theorem rsFeed (d : Nat) : Statement (.rsFeed d) := by
  simp only [Statement, Instr.row, rowRsFeed_hits, encode_toNat]; omega

theorem rsRdout (i : Nat) : Statement (.rsRdout i) := by
  simp only [Statement, Instr.row, rowRsRdout_hits, encode_toNat]; omega

end Sys2Proof.Laws.EncodedRow
end

