-- ==== Sys2Proof/Laws/Rs.lean ====
section
/-! SUPPORT. Entries of a register array after a write, the RS loop entry by entry, and the RS commands where
they succeed. -/

namespace Sys2Proof.Machine

section Entries
variable {n : Nat} (xs : Vector Codeword n)

theorem entryAt_set (i j : Nat) (v : Codeword) :
    entryAt (xs.setIfInBounds i v) j = if i = j ∧ i < n then v else entryAt xs j := by
  unfold entryAt
  rw [Vector.getElem?_setIfInBounds]
  by_cases h : i = j
  · subst h; by_cases h2 : i < n <;> simp [h2]
  · simp [h]

@[simp] theorem entryAt_zeros (j : Nat) : entryAt (Vector.replicate n (0 : Codeword)) j = 0 := by
  unfold entryAt; by_cases h : j < n <;> simp [h]

theorem entryAt_eq_getElem (j : Nat) (h : j < n) : entryAt xs j = xs[j] := by simp [entryAt, h]

theorem entryAt_beyond (j : Nat) (h : n ≤ j) : entryAt xs j = 0 := by simp [entryAt, h]

end Entries

theorem corrections_le {l : Nat} (h : l ≤ 8) : Config.corrections l ≤ 512 := by
  have := (by decide : ∀ l < 9, Config.corrections l ≤ 512) l (by omega)
  exact this

theorem reducedEntry_lt (prev t a : Nat) : reducedEntry prev t a < 929 := Nat.mod_lt _ (by decide)

/-- A value below 929 fits an entry. -/
theorem ofNat_toNat_of_lt {x : Nat} (h : x < 929) : (BitVec.ofNat 10 x).toNat = x := by
  simp only [BitVec.toNat_ofNat]; omega

/-- Every entry the loop writes is computed from the entry below it as it was before the loop. -/
theorem rsLoop_entry (coef : Nat → Codeword) (t k : Nat) (acc : Vector Codeword 512) (j : Nat) :
    entryAt (rsLoop coef t k acc) j =
      if j < k ∧ j < 512 then BitVec.ofNat 10 (reducedEntry (prevEntry acc j) t (coef j).toNat)
      else entryAt acc j := by
  induction k generalizing acc with
  | zero => simp [rsLoop]
  | succ k ih =>
    rw [rsLoop, ih]
    by_cases h1 : j < k ∧ j < 512
    · rw [if_pos h1, if_pos ⟨by omega, h1.2⟩]
      congr 2
      unfold prevEntry
      split
      · rfl
      · rw [entryAt_set, if_neg (by omega)]
    · rw [if_neg h1, entryAt_set]
      by_cases h2 : k = j ∧ k < 512
      · obtain ⟨rfl, h3⟩ := h2
        rw [if_pos ⟨rfl, h3⟩, if_pos ⟨by omega, h3⟩]
      · rw [if_neg h2, if_neg (by omega)]

theorem rsStep_entry (p : Params) (l d : Nat) (acc : Vector Codeword 512) (j : Nat) :
    entryAt (rsStep p l d acc) j =
      if j < Config.corrections l ∧ j < 512 then
        BitVec.ofNat 10 (reducedEntry (prevEntry acc j)
          (feedTerm d (entryAt acc (Config.corrections l - 1)).toNat) (coefAt p l j).toNat)
      else entryAt acc j := rsLoop_entry _ _ _ _ _

theorem neg929_toNat {x : Codeword} (h : x.toNat ≤ 928) :
    (neg929 x).toNat = if x.toNat = 0 then 0 else 929 - x.toNat := by
  unfold neg929 Config.modulus
  by_cases hx : x = 0
  · subst hx; rfl
  · have : x.toNat ≠ 0 := fun h => hx (BitVec.eq_of_toNat_eq h)
    rw [if_neg hx, if_neg this, BitVec.toNat_ofNat]; omega

section Commands
variable (s : State)

theorem execRsInit_of_legal {l : Nat} (he : s.err = 0) (hl : levelLegal s.params l = true) :
    exec (.rsInit l) s =
      .next (State.answer { s with rs := RsUnit.start l } true (BitVec.ofNat 24 (Config.corrections l))) := by
  show execRsInit _ _ = _
  rw [execRsInit, unlessRefused_of_clear he, if_pos hl, respond_eq]

theorem execRsFeed_of_legal {d : Nat} (he : s.err = 0) (hv : s.rs.valid = true)
    (hd : codewordLegal d = true) :
    exec (.rsFeed d) s = .next (State.answer { s with rs := s.rs.feed s.params d } false 0) := by
  show execRsFeed _ _ = _
  rw [execRsFeed, unlessRefused_of_clear he, if_pos hv, if_pos hd, respond_eq]

theorem execRsRdout_of_legal {i : Nat} (he : s.err = 0) (hv : s.rs.valid = true)
    (hi : outputIndexLegal s.rs i = true) :
    exec (.rsRdout i) s = .next (s.answer true (zext24 (s.rs.output i))) := by
  show execRsRdout _ _ = _
  rw [execRsRdout, unlessRefused_of_clear he, if_pos hv, if_pos hi, respond_eq]

end Commands

end Sys2Proof.Machine
end

