-- ==== Sys2Proof/Laws/Run.lean ====
section
/-! SUPPORT. Runs: a command does not see the port or the bookkeeping, and a run of command words goes one word
at a time. -/

namespace Sys2Proof.Machine

/-- `s` with another port and other bookkeeping: the same architectural record and parameters. -/
abbrev State.book (s : State) (port : Port) (index : Nat) (observed : List Word) (line : List HostEvent)
    (freeCount : Nat) : State :=
  { s with port := port, index := index, observed := observed, line := line, freeCount := freeCount }

section Book
variable (s : State) (port : Port) (index : Nat) (observed : List Word) (line : List HostEvent)
  (freeCount : Nat)
@[simp] theorem book_regmap : regmap (s.book port index observed line freeCount) = regmap s := by
  funext idx; unfold regmap; split <;> rfl

/-- A command's effect and response do not depend on the port or the bookkeeping. -/
theorem exec_book {i : Instr} {t : State} (h : exec i s = .next t) :
    exec i (s.book port index observed line freeCount) =
      .next (t.book ⟨t.port.phase, port.offered⟩ (index + 1) observed line freeCount) := by
  revert h
  cases i with
  | nop => intro h; cases h; rfl
  | srst => intro h; cases h; rfl
  | rdreg idx =>
    show execRdreg _ _ = _ → execRdreg _ _ = _
    unfold execRdreg raiseIfClear
    simp only [book_regmap]
    split
    · intro h; cases h; rfl
    · split_ifs <;> (intro h; cases h; rfl)
  | txtPush v =>
    show execTxtPush _ _ = _ → execTxtPush _ _ = _
    simp only [execTxtPush, unlessRefused]
    split_ifs <;> (intro h; cases h; rfl)
  | txtFlush =>
    show execTxtFlush _ = _ → execTxtFlush _ = _
    simp only [execTxtFlush, unlessRefused]
    split_ifs <;> (intro h; cases h; rfl)
  | b900Push b =>
    show execB900Push _ _ = _ → execB900Push _ _ = _
    simp only [execB900Push, unlessRefused]
    split_ifs <;> (intro h; cases h; rfl)
  | b900Flush =>
    show execB900Flush _ = _ → execB900Flush _ = _
    simp only [execB900Flush, unlessRefused]
    split_ifs <;> (intro h; cases h; rfl)
  | b900Mode len =>
    show execB900Mode _ _ = _ → execB900Mode _ _ = _
    simp only [execB900Mode, unlessRefused]
    split_ifs <;> (intro h; cases h; rfl)
  | rsInit lvl =>
    show execRsInit _ _ = _ → execRsInit _ _ = _
    simp only [execRsInit, unlessRefused]
    split_ifs <;> (intro h; cases h; rfl)
  | rsFeed d =>
    show execRsFeed _ _ = _ → execRsFeed _ _ = _
    simp only [execRsFeed, unlessRefused]
    split_ifs <;> (intro h; cases h; rfl)
  | rsRdout n =>
    show execRsRdout _ _ = _ → execRsRdout _ _ = _
    simp only [execRsRdout, unlessRefused]
    split_ifs <;> (intro h; cases h; rfl)

/-- The same of every word. -/
theorem runWord_book {w : Word} {t : State} (h : runWord w s = .next t) :
    runWord w (s.book port index observed line freeCount) =
      .next (t.book ⟨t.port.phase, port.offered⟩ (index + 1) observed line freeCount) := by
  cases hd : decode w with
  | command i => rw [runWord_command hd] at h ⊢; exact exec_book s port index observed line freeCount h
  | illegal why =>
    rw [runWord_illegal hd] at h ⊢
    revert h
    simp only [execIllegal, raiseIfClear]
    split_ifs <;> (intro h; cases h; rfl)
end Book

/-- One transaction on a command word. -/
theorem step_command {s t : State} {w : Word} {rest : List HostEvent} (idle : s.port.phase = .idle)
    (hl : s.line = .command w :: rest) (hw : runWord w { s with line := rest } = .next t) :
    step s = .next (takeResponse t) := by
  unfold step transact
  rw [hl]
  simp only [idle, hostEvent, hw, deliver_next]

theorem runWords_nil (s : State) : runWords [] s = .next { s with line := [] } := rfl

/-- What no word changes. -/
theorem runWord_keeps {w : Word} {s t : State} (h : runWord w s = .next t) :
    (∃ r, t.port = ⟨.done r, s.port.offered⟩) ∧ t.index = s.index + 1 ∧ t.observed = s.observed ∧
      t.line = s.line ∧ t.freeCount = s.freeCount ∧ t.params = s.params := by
  obtain ⟨err, rs, txt, b900, valid, value, hw⟩ := runWord_answers w s
  rw [hw] at h
  cases h
  exact ⟨⟨_, rfl⟩, rfl, rfl, rfl, rfl, rfl⟩

/-- A run, one word at a time. -/
theorem runWords_cons {s t : State} {w : Word} (ws : List Word) (idle : s.port.phase = .idle)
    (hw : runWord w s = .next t) : runWords (w :: ws) s = runWords ws (takeResponse t) := by
  obtain ⟨⟨r, hp⟩, hi, ho, -, hf, -⟩ := runWord_keeps hw
  have hb := runWord_book s s.port s.index s.observed (ws.map .command) s.freeCount hw
  show steps (ws.length + 1) _ = _
  rw [steps, step_command (s := s.issue (w :: ws)) (rest := ws.map .command) idle rfl hb]
  show steps _ _ = steps _ _
  congr 1
  simp only [takeResponse, State.issue, hp, hi, ho, hf]

/-- A run, one command at a time. -/
theorem runCommands_cons {s t : State} {i : Instr} (is : List Instr) (idle : s.port.phase = .idle)
    (hd : decode (encode i) = .command i) (he : exec i s = .next t) :
    runCommands (i :: is) s = runCommands is (takeResponse t) :=
  runWords_cons _ idle (by rw [runWord_command hd, he])

end Sys2Proof.Machine
end

