-- ==== Sys2Proof/Tests/Slice0.lean ====
section
/-! SUPPORT. Tests, with expected values taken from the spec's own words and tables (spec/95_test_vectors.md
where no other file is named), and for every statement with hypotheses a theorem that shows values which meet
them together. -/

namespace Sys2Proof.Tests

open Sys2Proof Sys2Proof.Machine

/-! ## Small states -/

/-- Reset but for `ERR`. -/
def latched (code : BitVec 4) : State := { State.reset with err := code }

/-- Reset but for a pending text value. -/
def pending (hi : BitVec 5) : State := { State.reset with txt := ⟨true, hi⟩ }

/-- Reset but for a partial byte group, with `B_OUT = [9, 9, 9, 9, 9]` from an earlier one. -/
def grouped (n : BitVec 3) (acc : BitVec 48) : State :=
  { State.reset with b900 := { n := n, acc := acc, outN := 5, out := #v[9, 9, 9, 9, 9] } }

/-- Reset but for a chosen level. -/
def atLevel (l : Nat) : State := { State.reset with rs := RsUnit.start l }

/-- The synthetic coefficients `COEF(0) = [1, 1]`, no other level present. -/
def synthetic : Params :=
  { defaultParams with
    coef := #v[[1, 1], [], [], [], [], [], [], [], []]
    present := #v[true, false, false, false, false, false, false, false, false] }

/-- An `RS_FEED` that takes two cycles at `RS_K = 2`. -/
def slowFeed : Params := { defaultParams with latency := [⟨0x31, 2, 1⟩] }

/-- Level 0 chosen and the accumulator's first two entries set. -/
def withEntries (p : Params) (c0 c1 : Codeword) : State :=
  { State.reset with
    params := p
    rs := { RsUnit.start 0 with acc := ((Vector.replicate 512 0).set 0 c0).set 1 c1 } }

/-- The state a command leaves. -/
def after : Result → Option State
  | .next s => some s
  | _ => none

/-- The response a command leaves at the port. -/
def response (r : Result) : Option Word := (after r).bind readyResponse

/-! ## WellFormed: an ill-formed term for each check -/

theorem test_wellFormed_rdreg : (Instr.rdreg 256).wellFormed = false := by decide
theorem test_wellFormed_txtPush : (Instr.txtPush 32).wellFormed = false := by decide
theorem test_wellFormed_b900Push : (Instr.b900Push 256).wellFormed = false := by decide
theorem test_wellFormed_b900Mode : (Instr.b900Mode 16777216).wellFormed = false := by decide
theorem test_wellFormed_rsInit : (Instr.rsInit 16).wellFormed = false := by decide
theorem test_wellFormed_rsFeed : (Instr.rsFeed 1024).wellFormed = false := by decide
theorem test_wellFormed_rsRdout : (Instr.rsRdout 512).wellFormed = false := by decide

/-! ## Decoding: words written bit by bit from spec/30_encoding.md R47 and R48 -/

theorem test_decode_nop : decode 0b00000000_000000000000000000000000#32 = .command .nop := by decide
theorem test_decode_srst : decode 0b00000001_000000000000000000000000#32 = .command .srst := by decide
theorem test_decode_rdreg :
    decode 0b00000010_0000000000000000_00001100#32 = .command (.rdreg 12) := by decide
theorem test_decode_txtPush :
    decode 0b00010000_0000000000000000000_11101#32 = .command (.txtPush 29) := by decide
theorem test_decode_txtFlush : decode 0b00010001_000000000000000000000000#32 = .command .txtFlush := by decide
theorem test_decode_b900Push :
    decode 0b00100000_0000000000000000_10000001#32 = .command (.b900Push 129) := by decide
theorem test_decode_b900Flush :
    decode 0b00100001_000000000000000000000000#32 = .command .b900Flush := by decide
theorem test_decode_b900Mode :
    decode 0b00100010_100000000000000000000111#32 = .command (.b900Mode 8388615) := by decide
theorem test_decode_rsInit :
    decode 0b00110000_00000000000000000000_1000#32 = .command (.rsInit 8) := by decide
theorem test_decode_rsFeed :
    decode 0b00110001_00000000000000_1110010001#32 = .command (.rsFeed 913) := by decide
theorem test_decode_rsRdout :
    decode 0b00110010_000000000000000_100000010#32 = .command (.rsRdout 258) := by decide

/-- Part 2.1: the unassigned opcodes. -/
theorem test_decode_unassigned :
    [0x03000000#32, 0x0F000000#32, 0x80000000#32, 0xFF000000#32].all
      (fun w => decode w == .illegal .unassignedOpcode) = true := by decide

/-- Part 2.1: the words with a reserved bit set. -/
theorem test_decode_reserved :
    [0x00000001#32, 0x01000001#32, 0x02000100#32, 0x10000020#32, 0x11000001#32, 0x20000100#32,
      0x21000001#32, 0x30000010#32, 0x31000400#32, 0x32000200#32].all
      (fun w => decode w == .illegal .reservedBitSet) = true := by decide

/-- The opcodes of the rows of R49 are those of R47, all different. -/
theorem test_opcodes_distinct :
    encTable.map (fun r => opcodeOf r.pattern) = assignedOpcodes ∧ assignedOpcodes.Nodup := by decide

/-- Each row's pattern lies within its mask, so the row can match. -/
theorem test_patterns_within_masks : encTable.all (fun r => r.pattern &&& r.mask == r.pattern) = true := by
  decide

/-! ## One step per command -/

/-- Part 2.1. -/
theorem test_illegal_raises : response (runWord 0x32000200#32 State.reset) = some 0x81000000#32 := by decide

/-- X5: the first error wins. -/
theorem test_illegal_while_latched : response (runWord 0xFF000000#32 (latched 4)) = some 0x84000000#32 := by
  decide

/-- C2. -/
theorem test_nop_reports_error : response (exec .nop (latched 4)) = some 0x84000000#32 := by decide

/-- C3. -/
theorem test_srst_response : response (exec .srst (latched 4)) = some 0x00000000#32 := by decide

/-- R62: the state of all units goes. -/
theorem test_srst_clears_group :
    (after (exec .srst (grouped 3 0x010203))).map (·.b900) = some Base900Unit.reset := by decide

/-- C12: STATUS with every field in its place. -/
theorem test_rdreg_status :
    response (exec (.rdreg 0x00)
      { grouped 5 0x4142434445 with
        txt := ⟨true, 7⟩
        rs := RsUnit.start 1
        b900 := { (grouped 5 0x4142434445).b900 with outN := 0 } }) = some 0x40001170#32 := by decide

/-- C9 and C11: an unmapped and a mapped index while an error is latched. -/
theorem test_rdreg_while_latched :
    response (exec (.rdreg 0x07) (latched 2)) = some 0x82000000#32 ∧
    response (exec (.rdreg 0x01) (latched 2)) = some 0xC2000000#32 := by decide

/-- Part 2.3: 29 then 29 is the largest codeword. -/
theorem test_txtPush_second : response (exec (.txtPush 29) (pending 29)) = some 0x40000383#32 := by decide

/-- Part 2.3: 31 after 4 raises, and the pending digit is kept. -/
theorem test_txtPush_range :
    response (exec (.txtPush 31) (pending 4)) = some 0x83000000#32 ∧
    (after (exec (.txtPush 31) (pending 4))).map (·.txt) = some ⟨true, 4⟩ := by decide

/-- Part 2.3. -/
theorem test_txtFlush_pads : response (exec .txtFlush (pending 28)) = some 0x40000365#32 := by decide

/-- Part 2.3: nothing pending. -/
theorem test_txtFlush_empty : response (exec .txtFlush State.reset) = some 0x00000000#32 := by decide

/-- B2: the largest group. -/
theorem test_b900Push_completes :
    (after (exec (.b900Push 0xFF) (grouped 5 0xFFFFFFFFFF))).map (·.b900) =
      some ⟨0, 0, 5, #v[429, 11, 71, 222, 855]⟩ := by decide

/-- B1, after the fifth push: the first byte is the most significant. -/
theorem test_b900Push_accumulates :
    (after (exec (.b900Push 0x45) (grouped 4 0x41424344))).map (·.b900) =
      some ⟨5, 0x4142434445, 5, #v[9, 9, 9, 9, 9]⟩ := by decide

/-- B11: bytes in input order, the rest zero. -/
theorem test_b900Flush_partial :
    response (exec .b900Flush (grouped 3 0x010203)) = some 0x40000003#32 ∧
    (after (exec .b900Flush (grouped 3 0x010203))).map (·.b900) = some ⟨0, 0, 3, #v[1, 2, 3, 0, 0]⟩ := by
  decide

/-- B11: an empty flush overwrites the results. -/
theorem test_b900Flush_empty :
    (after (exec .b900Flush (grouped 0 0))).map (·.b900) = some ⟨0, 0, 0, #v[0, 0, 0, 0, 0]⟩ := by decide

/-- B12: 0, 1 and 7. -/
theorem test_b900Mode_choice :
    response (exec (.b900Mode 0) State.reset) = some 0x4000039C#32 ∧
    response (exec (.b900Mode 1) State.reset) = some 0x40000391#32 ∧
    response (exec (.b900Mode 7) State.reset) = some 0x40000385#32 := by decide

/-- X3. -/
theorem test_b900Mode_refused : response (exec (.b900Mode 1) (latched 4)) = some 0x84000000#32 := by decide

/-- E5, the largest level, and S22, the first one that does not exist. -/
theorem test_rsInit_levels :
    response (exec (.rsInit 8) State.reset) = some 0x40000200#32 ∧
    response (exec (.rsInit 9) State.reset) = some 0x82000000#32 := by decide

/-- S24: a level without a table. -/
theorem test_rsInit_absent :
    response (exec (.rsInit 3) { State.reset with params := synthetic }) = some 0x82000000#32 := by decide

/-- S2: feeding 7 where `C = [924, 924]`, with the synthetic coefficients. -/
theorem test_rsFeed_step :
    (after (exec (.rsFeed 7) (withEntries synthetic 924 924))).map
      (fun t => (entryAt t.rs.acc 0, entryAt t.rs.acc 1, t.rs.dcnt)) = some (927, 922, 1) := by decide +kernel

/-- S19 and S21: `SequenceError` before the range check; then the range check. -/
theorem test_rsFeed_errors :
    response (exec (.rsFeed 1023) State.reset) = some 0x84000000#32 ∧
    response (exec (.rsFeed 929) (atLevel 0)) = some 0x83000000#32 := by decide

/-- S2: `C = [927, 922]` reads as 7, 2. -/
theorem test_rsRdout_reads :
    response (exec (.rsRdout 0) (withEntries synthetic 927 922)) = some 0x40000007#32 ∧
    response (exec (.rsRdout 1) (withEntries synthetic 927 922)) = some 0x40000002#32 := by decide +kernel

/-- S25 and S27. -/
theorem test_rsRdout_range :
    response (exec (.rsRdout 2) (atLevel 0)) = some 0x83000000#32 ∧
    response (exec (.rsRdout 511) (atLevel 8)) = some 0x40000000#32 := by decide +kernel

/-! ## The port -/

/-- R33, R142: with two cycles of latency the response appears on the second edge after acceptance. -/
theorem test_port_latency :
    let s := { withEntries slowFeed 0 0 with err := 0 }
    let offer : Pins := ⟨true, true, 0x31000001#32, false⟩
    let wait : Pins := ⟨true, false, 0#32, false⟩
    ((after (clockEdges [offer, wait] s)).map (fun t => rspValid wait t) = some false ∧
      (after (clockEdges [offer, wait, wait] s)).map (fun t => rspValid wait t) = some true) := by
  decide +kernel

/-- R136: reset discards the command in flight without a response. -/
theorem test_port_reset :
    (after (clockEdges [⟨true, true, 0x10000005#32, true⟩, ⟨false, true, 0#32, true⟩] State.reset)).map
      (fun t => (t.port, t.observed, t.txt)) = some (Port.reset, [], Base30Unit.reset) := by decide

/-- I7: withdrawing before acceptance does nothing. -/
theorem test_step_withdrawn :
    (after (step { State.reset with line := [.withdrawn 0x10000005#32] })).map
      (fun t => (t.txt, t.observed, t.index)) = some (Base30Unit.reset, [], 0) := by decide

/-! ## The assembler -/

/-- R54 and R55: a pair in decimal and hexadecimal, and a mnemonic that does not exist. -/
theorem test_assembler_lines :
    assembleLine "TXT_PAIR 1, 0x1D ; a pair" = some [0x10000001#32, 0x1000001D#32] ∧
    assembleLine "TXT_PUSH 32" = none ∧ assembleLine "HALT" = none := by decide

/-! ## Hypotheses that can be met

One theorem per statement that has hypotheses; each conjunct meets those of one clause, at the edge of its
range where it has one. -/

theorem witness_DecodeOfEncodeIsIdentity :
    [Instr.nop, .srst, .rdreg 255, .txtPush 31, .txtFlush, .b900Push 255, .b900Flush, .b900Mode 16777215,
      .rsInit 15, .rsFeed 1023, .rsRdout 511].all Instr.wellFormed = true := by decide

theorem witness_EncodeOfDecodeIsIdentity : decode 0x22FFFFFF#32 = .command (.b900Mode 16777215) := by decide

theorem witness_IllegalWordRaisesOnlyWhileClear :
    decode 0xFF000000#32 = .illegal .unassignedOpcode ∧ State.reset.err = 0 ∧ (latched 4).err ≠ 0 := by decide

theorem witness_StepRunsDecodedInstruction :
    (State.reset.port.phase = .idle ∧ (State.reset.withFetchWord 32 0x02000008).line = [.command 0x02000008#32] ∧
      decode 0x02000008#32 = .command (.rdreg 8)) ∧
    decodeTableWord 32 0x320001FF = some (.rsRdout 511) ∧
    ((State.reset.answer false 0).port.phase = .done 0#32) := by decide

theorem witness_DispatchIsTheStepFunction :
    decode 0x0F000000#32 = .illegal .unassignedOpcode ∧
    (decode 0x10000005#32 = .command (.txtPush 5) ∧ (latched 4).err ≠ 0) ∧
    (decode 0x10000005#32 = .command (.txtPush 5) ∧ State.reset.err = 0) ∧
    (decode 0x020000FF#32 = .command (.rdreg 255) ∧ (latched 4).err ≠ 0) := by decide

theorem witness_DispatchIsTheStepFunction_equal_records :
    ({ State.reset with index := 5 } : State).arch = State.reset.arch ∧
    ({ State.reset with index := 5 } : State).params = State.reset.params := ⟨rfl, rfl⟩

theorem witness_RefusalChangesNothing :
    ((latched 4).err ≠ 0 ∧ Instr.rsInit 2 ≠ .nop ∧ Instr.rsInit 2 ≠ .srst) ∧
    regmap (latched 4) 0x00 = some 4 ∧ regmap (latched 4) 0x0C = some 0 := by decide

theorem witness_RefusalChangesNothing_not_rdreg : ∀ idx, Instr.rsInit 2 ≠ .rdreg idx := by
  intro idx h; cases h

theorem witness_RaiseWritesErrAndNothingElse :
    (after (runWord 0x31000003#32 State.reset)).map (·.err) = some 4 ∧ State.reset.err ≠ 4 ∧
    decode 0x31000003#32 ≠ .command .srst := by decide

theorem witness_FirstErrorIsKept :
    (latched 3).err ≠ 0 ∧ decode 0x10000005#32 ≠ .command .srst ∧
    (after (runWord 0x10000005#32 (latched 3))).isSome = true := by decide

theorem witness_ErrorPriorityOrder :
    decode 0x31000400#32 = .illegal .reservedBitSet ∧
    ((latched 1).err ≠ 0 ∧ isExempt (.rsFeed 929) = false) ∧
    (State.reset.err = 0 ∧ State.reset.rs.valid = false) ∧
    ((atLevel 0).err = 0 ∧ (atLevel 0).rs.valid = true ∧ 928 < 929 ∧ 2 <<< (atLevel 0).rs.level.toNat ≤ 2) ∧
    (8 < 9 ∧ coefPresent synthetic 8 = false) ∧ 29 < 30 ∧ 12 < 13 := by decide

theorem witness_ErrorIsClearedByResetOnly :
    (latched 4).err ≠ 0 ∧
    (after (step { latched 4 with line := [.command 0x01000000#32] })).map (·.err) = some 0 ∧
    (after (step { latched 4 with line := [.hardReset] })).map (·.err) = some 0 ∧
    (after (step { latched 4 with line := [.unstable 0x01000000#32 [0x01000000#32]] })).map (·.err) = some 0 ∧
    (after (step { latched 4 with port := ⟨.busy 0x01000000#32 1, []⟩ })).map (·.err) = some 0 := by decide

theorem witness_NopChangesNothing :
    (0x00000001#32).extractLsb' 24 8 = 0x00#8 ∧ (0x00FFFFFF#32).extractLsb' 24 8 = 0x00#8 := by decide

theorem witness_SrstRestoresResetState :
    ((0x01000001#32).extractLsb' 24 8 = 0x01#8 ∧ 0x01000001#32 ≠ 0x01000000#32) ∧
    ((latched 4).err ≠ 0 ∧ (after (exec .srst (latched 4))).map (·.err) = some 0) := by decide

theorem witness_RdregReadsRegisterMap :
    (0 < 5 ∧ 4 < 5 ∧ 0x0D ≤ 0x0D) ∧ regmap State.reset 0x06 = some 0 ∧
    (State.reset.err = 0 ∧ (latched 4).err ≠ 0) ∧
    decode 0x020000FF#32 = .command (.rdreg 255) := by decide

theorem witness_RdregReadsRegisterMap_unselected : State.reset.rs = RsUnit.reset := rfl

theorem witness_TxtPushPairsValues :
    (State.reset.err = 0 ∧ 29 ≤ 29 ∧ State.reset.txt.pend = false) ∧
    ((pending 29).err = 0 ∧ (pending 29).txt.pend = true) ∧ 29 < 30 ∧ (latched 4).err ≠ 0 := by decide

theorem witness_TxtFlushPadsWith29 :
    ((pending 29).err = 0 ∧ (pending 29).txt.pend = true) ∧
    (State.reset.err = 0 ∧ State.reset.txt.pend = false) ∧ (latched 4).err ≠ 0 ∧
    (after (exec .txtFlush (pending 29))).isSome = true := by decide

theorem witness_PairingLaw :
    State.reset.port.phase = .idle ∧ State.reset.err = 0 ∧ State.reset.txt.pend = false ∧
    (∀ v ∈ [29, 0, 29], v ≤ 29) ∧ 2 * 0 + 1 < [29, 0, 29].length ∧ [29, 0, 29].length % 2 = 1 := by decide

theorem witness_B900PushAccumulatesAndConverts :
    ((grouped 5 0).err = 0 ∧ (grouped 5 0).b900.n = 5) ∧
    ((grouped 4 0).err = 0 ∧ (grouped 4 0).b900.n.toNat < 5) ∧ (latched 4).err ≠ 0 ∧
    ((grouped 5 0xFFFFFFFFFF).b900.n.toNat ≤ 5 ∧ (grouped 5 0xFFFFFFFFFF).b900.acc.toNat < 256 ^ 5 ∧
      255 < 256) := by decide

theorem witness_Conv900DividesExactly : 281474976710655 < 2 ^ 48 ∧ 4 < 5 := by decide

theorem witness_B900FlushPassesBytesThrough :
    (grouped 5 0).err = 0 ∧ 4 < 5 ∧ (latched 4).err ≠ 0 := by decide

theorem witness_B900ModeChoosesIndicator :
    State.reset.err = 0 ∧ 0 % 6 = 0 ∧ 16777212 % 6 = 0 ∧ (7 ≠ 1 ∧ 7 % 6 ≠ 0) ∧ (latched 4).err ≠ 0 ∧
    State.reset.params.modeShiftByte = 913 ∧ State.reset.params.modeByte6 = 924 := by decide

theorem witness_GroupAccumulationHoldsBytes :
    State.reset.port.phase = .idle ∧ State.reset.err = 0 ∧ State.reset.b900.n = 0 ∧
    State.reset.b900.acc = 0 ∧ [255, 0, 1, 2, 255].length ≤ 5 ∧ (∀ b ∈ [255, 0, 1, 2, 255], b < 256) ∧
    [255, 0, 1, 2, 255, 7].length = 6 ∧ (∀ b ∈ [255, 0, 1, 2, 255, 7], b < 256) := by decide

theorem witness_PayloadGroupLaw :
    State.reset.port.phase = .idle ∧ State.reset.err = 0 ∧ State.reset.b900.n = 0 ∧
    State.reset.b900.acc = 0 ∧ (∀ b ∈ [255, 0, 1, 2, 3, 255, 7], b < 256) ∧ ([] : List Nat).length % 6 = 0 := by
  decide

theorem witness_BOutWrittenOnlyByConversionFlushReset :
    (after (exec (.b900Push 1) (grouped 5 0))).map (fun t => decide (t.b900.out = (grouped 5 0).b900.out)) =
      some false ∧
    ((grouped 5 7).err = 0 ∧ (grouped 5 7).b900.n = 5 ∧
      ({ grouped 5 7 with b900 := { (grouped 5 7).b900 with outN := 0 } } : State).b900.acc =
        (grouped 5 7).b900.acc) := by decide

theorem witness_RsInitSelectsLevel :
    (State.reset.err = 0 ∧ 8 ≤ 8 ∧ coefPresent State.reset.params 8 = true) ∧ 8 < 9 ∧
    coefPresent synthetic 3 = false ∧ (latched 4).err ≠ 0 ∧ coefPresent State.reset.params 2 = true := by decide

theorem witness_RsFeedAbsorbsCodeword :
    (State.reset.err = 0 ∧ State.reset.rs.valid = false) ∧
    ((atLevel 8).err = 0 ∧ (atLevel 8).rs.valid = true ∧ 928 < 929 ∧ 928 ≤ 928) ∧ (latched 4).err ≠ 0 ∧
    2 <<< 8 ≤ 512 ∧
    1 < 2 <<< 0 ∧
    (State.reset.params.coef[0] = [27, 917] ∧ coefPresent State.reset.params 0 = true ∧
      State.reset.port.phase = .idle) := by decide +kernel

theorem witness_RsFeedAbsorbsCodeword_entries :
    let acc : Vector Codeword 512 := Vector.replicate 512 1
    (∀ m, (entryAt acc m).toNat ≤ 928) ∧
      (928 + (entryAt acc ((2 <<< 0) - 1)).toNat) % 929 * (coefAt synthetic 0 1).toNat % 929 = 0 := by
  refine ⟨fun m => ?_, by decide⟩
  by_cases h : m < 512 <;> simp [entryAt, h]

theorem witness_RsRdoutReadsNegatedReversed :
    (State.reset.err = 0 ∧ State.reset.rs.valid = false) ∧
    ((atLevel 8).err = 0 ∧ (atLevel 8).rs.valid = true ∧ 2 <<< (atLevel 8).rs.level.toNat ≤ 512 ∧
      511 < 2 <<< (atLevel 8).rs.level.toNat) ∧
    (entryAt (withEntries synthetic 928 0).rs.acc 0).toNat ≤ 928 ∧ (latched 4).err ≠ 0 := by decide +kernel

theorem witness_RsStepIsSimultaneousUpdate : 8 ≤ 8 ∧ 511 < 2 <<< 8 ∧ 928 ≤ 928 := by decide

theorem witness_RsUnitComputesSourceCorrections :
    State.reset.port.phase = .idle ∧ State.reset.err = 0 ∧ 8 ≤ 8 ∧ coefPresent State.reset.params 8 = true := by
  decide

theorem witness_RsUnitComputesSourceCorrections_body :
    ∀ i ∈ [Instr.rsFeed 928, .rsRdout 511],
      (∃ d, i = .rsFeed d ∧ d ≤ 928) ∨ (∃ n, i = .rsRdout n ∧ n < 2 <<< 8) := by
  intro i hi
  rcases List.mem_pair.mp hi with rfl | rfl
  · exact .inl ⟨928, rfl, by decide⟩
  · exact .inr ⟨511, rfl, by decide⟩

theorem witness_CorrectionOutputLength :
    State.reset.port.phase = .idle ∧ State.reset.err = 0 ∧ 0 ≤ 8 ∧ coefPresent State.reset.params 0 = true ∧
    (∀ d ∈ [0, 928], d ≤ 928) ∧ 1 < 2 <<< 0 ∧ 2 <<< 0 ≤ 2 := by decide

theorem witness_SingleOneReadsCoefficientsReversed :
    ({ State.reset with params := synthetic } : State).port.phase = .idle ∧ State.reset.err = 0 ∧ 0 ≤ 8 ∧
    coefPresent synthetic 0 = true ∧ 1 < 2 <<< 0 := by decide

theorem witness_SingleOneReadsCoefficientsReversed_params : LegalParams synthetic := by
  refine ⟨by decide, fun l j => ?_, by decide, by decide, by decide⟩
  by_cases hl : l < 9
  · have small : ∀ l < 9, ((synthetic.coef[l]?.getD []).all fun x => decide (x.toNat ≤ 928)) = true := by
      decide +kernel
    unfold coefAt
    cases h : (synthetic.coef[l]?.getD [])[j]? with
    | none => decide
    | some x => exact of_decide_eq_true (List.all_eq_true.mp (small l hl) x (List.mem_of_getElem? h))
  · simp [coefAt, hl]

theorem witness_FeedCounterCountsModulo :
    State.reset.port.phase = .idle ∧ State.reset.err = 0 ∧ 8 ≤ 8 ∧ coefPresent State.reset.params 8 = true ∧
    (∀ d ∈ [928, 0], d ≤ 928) ∧ isRs (.rsRdout 511) = true := by decide

theorem witness_LevelWrittenOnlyByRsInit :
    (after (exec (.rsInit 8) State.reset)).map (fun t => (t.rs.valid, t.rs.level)) = some (true, 8) ∧
    State.reset.rs.valid = false := by decide

/-- A legal state in the middle of a text pair, with the next command on the host's line. -/
def midPair : State := { pending 29 with line := [.command 0x1000001D#32] }

theorem midPair_legal : Legal midPair := by
  refine ⟨by decide, by decide, fun _ => rfl, fun h => absurd h (by decide), fun j => ?_, fun j _ => ?_,
    by decide, fun h => absurd h (by decide), by decide, by decide, by decide, fun j => ?_, fun j _ => ?_, ?_⟩
  · show (entryAt (Vector.replicate 512 (0 : Codeword)) j).toNat ≤ 928
    unfold entryAt; by_cases h : j < 512 <;> simp [h]
  · show entryAt (Vector.replicate 512 (0 : Codeword)) j = 0
    unfold entryAt; by_cases h : j < 512 <;> simp [h]
  · show (entryAt (Vector.replicate 5 (0 : Codeword)) j).toNat ≤ 899
    unfold entryAt; by_cases h : j < 5 <;> simp [h]
  · show entryAt (Vector.replicate 5 (0 : Codeword)) j = 0
    unfold entryAt; by_cases h : j < 5 <;> simp [h]
  · intro r h; cases h

theorem witness_StepKeepsLegalStates :
    Legal midPair ∧ (after (step midPair)).map (·.observed) = some [0x40000383#32] :=
  ⟨midPair_legal, by decide⟩

theorem witness_ClockEdgeKeepsLegalStates :
    Legal midPair ∧ (after (clockEdge ⟨true, true, 0x1000001D#32, true⟩ midPair)).map (·.port.phase) =
      some (.busy 0x1000001D#32 1) :=
  ⟨midPair_legal, by decide⟩

theorem witness_UnitsShareOnlyErr :
    isText (.txtPush 29) = true ∧ isGroup (.b900Mode 1) = true ∧ isRs (.rsRdout 511) = true ∧
    (after (exec (.txtPush 29) State.reset)).isSome = true ∧
    ((grouped 5 7).err = State.reset.err ∧ (grouped 5 7).txt = State.reset.txt) ∧
    ((pending 29).err = State.reset.err ∧ (pending 29).b900 = State.reset.b900) := by decide

theorem witness_UnitsShareOnlyErr_rs :
    (pending 29).rs = State.reset.rs ∧ (pending 29).params = State.reset.params := ⟨rfl, rfl⟩

theorem witness_CommandsOfDifferentUnitsCommute :
    (isText (.txtPush 29) = true ∧ isGroup .b900Flush = true ∧ isRs (.rsInit 8) = true) ∧
    ((after (exec (.txtPush 29) State.reset)).bind fun t => after (exec (.rsInit 8) t)).map (·.err) = some 0 := by
  decide

theorem witness_ParametersNeverChange :
    (after (exec .srst State.reset)).isSome = true ∧ (after (step midPair)).isSome = true ∧
    (after (clockEdge ⟨false, true, 0#32, true⟩ midPair)).isSome = true := by decide

theorem witness_ReadsHaveNoSideEffects :
    (∃ idx, Instr.rdreg 7 = .rdreg idx) ∧ (∃ n, Instr.rsRdout 511 = .rsRdout n) ∧
    (∃ len, Instr.b900Mode 0 = .b900Mode len) := ⟨⟨7, rfl⟩, ⟨511, rfl⟩, ⟨0, rfl⟩⟩

theorem witness_WhatTheHostCanObserve :
    Legal midPair ∧ midPair.rs.level = midPair.rs.level ∧ 1 < midPair.rs.k ∧
    (midPair.err = (pending 29).err ∧ midPair.txt = (pending 29).txt ∧ midPair.b900 = (pending 29).b900 ∧
      midPair.params = (pending 29).params ∧ midPair.rs = (pending 29).rs) ∧
    (∀ idx, regmap midPair idx = regmap (pending 29) idx) :=
  ⟨midPair_legal, rfl, by decide, ⟨rfl, rfl, rfl, rfl, rfl⟩, fun _ => rfl⟩

theorem witness_ResetValues : (∃ s₀, hardReset (latched 4) = hardReset s₀) ∧ 511 < 512 ∧ 4 < 5 :=
  ⟨⟨latched 4, rfl⟩, by decide, by decide⟩

theorem witness_SrstMatchesHardReset :
    (latched 4).port.phase = .idle ∧ decode 0x01000000#32 = .command .srst := by decide

theorem witness_HardwareResetDiscardsCommandInFlight :
    (⟨false, true, 0#32, true⟩ : Pins).rstN = false ∧ (⟨true, false, 0#32, false⟩ : Pins).rstN = true := by
  decide

theorem witness_PortHoldsOneCommandUntilTaken :
    let s := withEntries slowFeed 0 0
    let offer : Pins := ⟨true, true, 0x31000001#32, false⟩
    let wait : Pins := ⟨true, false, 0#32, false⟩
    (s.port.phase = .idle ∧ s.port.offered = [] ∧ offer.rstN = true ∧ offer.cmdValid = true ∧
      (∀ q ∈ [wait, wait], q.rstN = true)) ∧
    [wait].length < latency s.params (offer.cmdData.extractLsb' 24 8) s.rs.k ∧
    [wait, wait].length = latency s.params (offer.cmdData.extractLsb' 24 8) s.rs.k ∧
    (∀ q ∈ [wait, wait, wait], q.rstN = true ∧ q.rspReady = false) ∧
    ({ wait with rspReady := true } : Pins).rspReady = true := by decide

theorem witness_ClockedTransactionIsOneStep :
    let s := withEntries slowFeed 0 0
    let offer : Pins := ⟨true, true, 0x31000001#32, false⟩
    let wait : Pins := ⟨true, true, 0x10000005#32, true⟩
    s.port = Port.reset ∧ offer.rstN = true ∧ offer.cmdValid = true ∧ (∀ q ∈ [wait, wait], q.rstN = true) ∧
    [wait, wait].length = latency s.params (offer.cmdData.extractLsb' 24 8) s.rs.k ∧ wait.rspReady = true := by
  decide

theorem witness_AcceptedWordIsOneOffered :
    (State.reset.port.phase = .idle ∧
      ({ State.reset with line := [.unstable 0x10000001#32 [0x10000002#32]] } : State).line =
        .unstable 0x10000001#32 [0x10000002#32] :: []) ∧
    ([0x10000001#32, 0x10000001#32].all (· == 0x10000001#32) = true) ∧
    ({ State.reset with line := [.withdrawn 0x10000001#32] } : State).line = .withdrawn 0x10000001#32 :: [] ∧
    (⟨true, false, 0#32, true⟩ : Pins).cmdValid = false ∧ (⟨true, true, 0#32, true⟩ : Pins).cmdValid = true := by
  decide

theorem witness_LatencyAtLeastOneCycle : (0x32 : BitVec 8) ≠ 0x30 ∧ (0x32 : BitVec 8) ≠ 0x31 := by decide

theorem witness_RunObservesOneResponsePerCommand :
    State.reset.port.phase = .idle ∧ State.reset.err = 0 ∧ 0 < [0x10000005#32].length ∧
    responseErrf 0x00000000#32 = false := by decide

theorem witness_IdleBlockHoldsState :
    State.reset.port.phase = .idle ∧ State.reset.line = [] ∧ State.reset.port = Port.reset ∧
    (⟨true, false, 0#32, false⟩ : Pins).cmdValid = false := by decide

theorem witness_PseudoInstructionExpansions : (1 ≤ 1 ∧ 5 ≤ 5 ∧ 4 < 5) ∧ 8 ≤ 8 ∧ 511 < 2 <<< 8 := by decide

theorem witness_AssemblerAcceptsWhatFits :
    ¬ (Instr.rsRdout 512).WellFormed ∧ (Instr.rsRdout 511).WellFormed := by decide

end Sys2Proof.Tests
end

/-! What one transaction and one clock edge do, case by case (spec/00_scope.md R10, spec/20_memory.md R32, R33),
and the statements of spec/00_scope.md that follow: the step is total, it runs the decoded command, and the
signal layer refines it. -/

namespace Sys2Proof.Machine

/-! ### Running a word -/

/-- R117: every word runs to a next state. -/
theorem runWord_total (w : Word) (s : State) : ∃ t, runWord w s = .next t := by
  obtain ⟨err, rs, txt, b900, valid, value, h⟩ := runWord_answers w s
  exact ⟨_, h⟩

/-- A word does not see where the port stands: its response replaces the phase, and the words noted as offered
stay. -/
theorem runWord_of_port {w : Word} {s u : State} (h : runWord w s = .next u) (port : Port) :
    runWord w { s with port := port } = .next { u with port := ⟨u.port.phase, port.offered⟩ } := by
  obtain ⟨-, hindex, hobserved, hline, hfree, -⟩ := runWord_keeps h
  simpa only [State.book, hindex, hobserved, hline, hfree] using
    runWord_book s port s.index s.observed s.line s.freeCount h

/-- A word does not see the host's line. -/
theorem runWord_of_line {w : Word} {s u : State} (h : runWord w s = .next u) (line : List HostEvent) :
    runWord w { s with line := line } = .next { u with line := line } := by
  obtain ⟨⟨r, hport⟩, hindex, hobserved, -, hfree, -⟩ := runWord_keeps h
  simpa only [State.book, hport, hindex, hobserved, hfree] using
    runWord_book s s.port s.index s.observed line s.freeCount h

/-- The host takes the response `r` that is ready (R32). -/
theorem takeResponse_of_done {t : State} {r : Word} (h : t.port.phase = .done r) :
    takeResponse t =
      { t with port := { t.port with phase := .idle }, observed := t.observed ++ [r] } := by
  simp only [takeResponse, h]

/-! ### One transaction -/

/-- At an idle port the host's next event is handled, a hardware reset like any other. -/
theorem step_of_event {s : State} {e : HostEvent} {rest : List HostEvent} (idle : s.port.phase = .idle)
    (hl : s.line = e :: rest) : step s = hostEvent e { s with line := rest } := by
  cases e <;> simp only [step, transact, hl, idle, hostEvent]

/-- A word of the opcode table that decodes is the word of that command. -/
theorem decode_of_decodeTableWord {nbits w : Nat} {i : Instr} (h : decodeTableWord nbits w = some i) :
    decode (BitVec.ofNat 32 (w % 2 ^ nbits)) = .command i := by
  unfold decodeTableWord at h
  cases hd : decode (BitVec.ofNat 32 (w % 2 ^ nbits)) with
  | command j => rw [hd] at h; cases h; rfl
  | illegal why => rw [hd] at h; cases h

/-- At an idle port a command word at the head of the host's line runs the command it decodes to. -/
theorem step_of_decoded {s : State} {w : Word} {rest : List HostEvent} {i : Instr}
    (idle : s.port.phase = .idle) (hl : s.line = .command w :: rest) (hd : decode w = .command i) :
    step s = deliver (exec i { s with line := rest }) := by
  rw [step_of_event idle hl, hostEvent, runWord_command hd]

theorem deliver_runWord_total (w : Word) (s : State) : ∃ t, deliver (runWord w s) = .next t := by
  obtain ⟨t, h⟩ := runWord_total w s
  exact ⟨takeResponse t, by rw [h, deliver_next]⟩

theorem hostEvent_total (e : HostEvent) (s : State) : ∃ t, hostEvent e s = .next t := by
  cases e with
  | command w => exact deliver_runWord_total w s
  | unstable w later => exact deliver_runWord_total _ _
  | withdrawn w => exact ⟨s, rfl⟩
  | hardReset => exact ⟨hardReset s, rfl⟩

theorem step_total (s : State) : ∃ t, step s = .next t := by
  unfold step transact
  split
  · exact ⟨_, rfl⟩
  · split
    · exact deliver_runWord_total _ s
    · exact ⟨_, rfl⟩
    · split
      · exact ⟨_, rfl⟩
      · exact hostEvent_total _ _

/-! ### One clock edge -/

section Edge
variable {p : Pins} {s : State}

/-- R136. -/
theorem clockEdge_of_reset (hr : p.rstN = false) : clockEdge p s = .next (hardReset s) := by
  simp [clockEdge, hr]

theorem clockEdge_of_idle (hr : p.rstN = true) (idle : s.port.phase = .idle) :
    clockEdge p s = .next (if p.cmdValid then acceptCommand p s else noteOffer p s) := by
  simp only [clockEdge, hr, idle, if_true]

theorem clockEdge_of_busy {w : Word} {left : Nat} (hr : p.rstN = true) (busy : s.port.phase = .busy w left) :
    clockEdge p s =
      if left ≤ 1 then runWord w (noteOffer p s)
      else .next (noteOffer p { s with port := { s.port with phase := .busy w (left - 1) } }) := by
  simp only [clockEdge, hr, busy, if_true]

theorem clockEdge_of_done {r : Word} (hr : p.rstN = true) (done : s.port.phase = .done r) :
    clockEdge p s = .next (noteOffer p (if p.rspReady then takeResponse s else s)) := by
  simp only [clockEdge, hr, done, if_true]

theorem clockEdge_total (p : Pins) (s : State) : ∃ t, clockEdge p s = .next t := by
  cases hr : p.rstN with
  | false => exact ⟨_, clockEdge_of_reset hr⟩
  | true =>
    cases hp : s.port.phase with
    | idle => exact ⟨_, clockEdge_of_idle hr hp⟩
    | done r => exact ⟨_, clockEdge_of_done hr hp⟩
    | busy w left =>
      rw [clockEdge_of_busy hr hp]
      split
      · exact runWord_total w _
      · exact ⟨_, rfl⟩

/-- R32, R144: with no word offered before in the same wait, the word on `cmd_data` is accepted and no choice is
made. -/
theorem clockEdge_accepts (hr : p.rstN = true) (hv : p.cmdValid = true) (hp : s.port = Port.reset) :
    clockEdge p s =
      .next { s with port := ⟨.busy p.cmdData (latency s.params (opcodeOf p.cmdData) s.rs.k), []⟩ } := by
  have hnone : s.port.offered = [] := by rw [hp]; rfl
  rw [clockEdge_of_idle hr (by rw [hp]; rfl), if_pos hv]
  simp only [acceptCommand, edgeWord, edgeChoice, hnone]

/-- R32: on an edge with `rsp_ready` the response that is ready is taken. -/
theorem clockEdge_takes {r : Word} (hr : p.rstN = true) (hready : p.rspReady = true)
    (done : s.port.phase = .done r) : clockEdge p s = .next (noteOffer p (takeResponse s)) := by
  rw [clockEdge_of_done hr done, if_pos hready]

end Edge

/-! ### Sequences of clock edges -/

theorem clockEdges_cons {p : Pins} {s t : State} (h : clockEdge p s = .next t) (ps : List Pins) :
    clockEdges (p :: ps) s = clockEdges ps t := by
  simp only [clockEdges, h]

theorem clockEdges_append {s t : State} {ps : List Pins} (h : clockEdges ps s = .next t) (qs : List Pins) :
    clockEdges (ps ++ qs) s = clockEdges qs t := by
  induction ps generalizing s with
  | nil => cases h; rfl
  | cons p ps ih =>
    obtain ⟨s', hp⟩ := clockEdge_total p s
    rw [clockEdges_cons hp] at h
    rw [List.cons_append, clockEdges_cons hp, ih h]

/-- R33, R142: a command in flight has its whole effect, and its response, after exactly the edges that were
left, whatever is on the pins but reset. -/
theorem clockEdges_complete {w : Word} {s u : State} (hw : runWord w s = .next u) {ps : List Pins}
    (hps : ∀ p ∈ ps, p.rstN = true) (hne : ps ≠ []) (offered : List Word) :
    ∃ offered', clockEdges ps { s with port := ⟨.busy w ps.length, offered⟩ } =
      .next { u with port := ⟨u.port.phase, offered'⟩ } := by
  induction ps generalizing offered with
  | nil => exact absurd rfl hne
  | cons p ps ih =>
    obtain ⟨hp, hps⟩ := List.forall_mem_cons.mp hps
    have hedge := clockEdge_of_busy (p := p)
      (s := { s with port := ⟨.busy w (p :: ps).length, offered⟩ }) hp rfl
    cases ps with
    | nil =>
      rw [if_pos (by simp), noteOffer, runWord_of_port hw] at hedge
      exact ⟨_, clockEdges_cons hedge []⟩
    | cons q qs =>
      rw [if_neg (by simp)] at hedge
      rw [clockEdges_cons hedge]
      exact ih hps (List.cons_ne_nil q qs) _

theorem latency_pos (p : Params) (op : BitVec 8) (k : Nat) : 1 ≤ latency p op k := Nat.le_add_right 1 _

/-- R32, R33, R142: a command offered at a fresh port, its latency, and the edge on which its response is taken
leave the state that running it and taking the response does, but for the words noted as offered. -/
theorem clockEdges_transaction {s u : State} {p q : Pins} {ps : List Pins} (hport : s.port = Port.reset)
    (hp : p.rstN = true) (hv : p.cmdValid = true) (hps : ∀ x ∈ ps, x.rstN = true)
    (hlen : ps.length = latency s.params (opcodeOf p.cmdData) s.rs.k) (hq : q.rstN = true)
    (hready : q.rspReady = true) (hw : runWord p.cmdData s = .next u) :
    ∃ offered, clockEdges (p :: ps ++ [q]) s =
      .next { takeResponse u with port := ⟨.idle, offered⟩ } := by
  obtain ⟨⟨r, hu⟩, -⟩ := runWord_keeps hw
  have hne : ps ≠ [] := List.ne_nil_of_length_pos (hlen ▸ latency_pos _ _ _)
  have haccept := clockEdge_accepts hp hv hport
  rw [← hlen] at haccept
  obtain ⟨offered, hrun⟩ := clockEdges_complete hw hps hne []
  have htake := clockEdge_takes (s := { u with port := ⟨u.port.phase, offered⟩ }) (r := r) hq hready
    (by simp only [hu])
  rw [List.cons_append, clockEdges_cons haccept, clockEdges_append hrun, clockEdges_cons htake]
  exact ⟨_, by simp only [clockEdges, noteOffer, takeResponse, hu]; rfl⟩

/-! ### The statements -/

/-- Settles O10: both layers end in a next state because every word does (`runWord_total`). -/
theorem nothingStopsTheMachine : Obligations.NothingStopsTheMachine :=
  ⟨step_total, clockEdge_total⟩

/-- Settles O51: the edges accept the word, count its latency, run it and take its response
(`clockEdges_transaction`), as the step does with the line consumed (`step_command`). -/
theorem clockedTransactionIsOneStep : Obligations.ClockedTransactionIsOneStep := by
  intro s p q ps rest hport hp hv hps hlen hq hready
  obtain ⟨u, hw⟩ := runWord_total p.cmdData s
  obtain ⟨⟨r, hu⟩, -⟩ := runWord_keeps hw
  obtain ⟨offered, hedges⟩ := clockEdges_transaction hport hp hv hps hlen hq hready hw
  have hstep := step_command (s := { s with line := .command p.cmdData :: rest }) (rest := rest)
    (by rw [hport]; rfl) rfl (runWord_of_line hw rest)
  refine ⟨_, _, hedges, hstep, ?_⟩
  simp only [takeResponse, hu, hport, portReset_offered]

/-- Settles O8: both forms of issuing a word are `step_of_decoded`. -/
theorem stepRunsDecodedInstruction : Obligations.StepRunsDecodedInstruction := by
  refine ⟨fun s w rest i => step_of_decoded, fun s nbits w i hd => ?_, fun t r done => ?_⟩
  · exact step_of_decoded (s := s.withFetchWord nbits w) rfl rfl (decode_of_decodeTableWord hd)
  · rw [deliver_next, takeResponse_of_done done]

end Sys2Proof.Machine

/-! Registers and legality (spec/10_state.md): the packed words field by field, what each command writes
(`exec_effect`), the legal states unit by unit, and the statements about single registers and about what a host
observes. -/

namespace Sys2Proof.Machine

/-! ### Packed words: a field is a digit of the word's number -/

/-- A bit field as a quotient and a remainder. -/
theorem toNat_extractLsb' {w : Nat} (x : BitVec w) (start len : Nat) :
    (x.extractLsb' start len).toNat = x.toNat / 2 ^ start % 2 ^ len := by
  rw [BitVec.extractLsb'_toNat, Nat.shiftRight_eq_div_pow]

/-- A field of a packed word is the register whose number stands at its place. -/
theorem extractLsb'_eq_of_place {w n : Nat} {x : BitVec w} {v : BitVec n} (start : Nat)
    (h : x.toNat / 2 ^ start % 2 ^ n = v.toNat) : x.extractLsb' start n = v :=
  BitVec.eq_of_toNat_eq ((toNat_extractLsb' x start n).trans h)

theorem getLsbD_eq_of_place {w : Nat} {x : BitVec w} {b : Bool} (i : Nat)
    (h : x.toNat / 2 ^ i % 2 = b.toNat) : x.getLsbD i = b := by
  rw [BitVec.getLsbD, Nat.testBit_eq_decide_div_mod_eq, h]
  cases b <;> rfl

/-- R52: the response word as a number, its fields at their places. -/
theorem responseWord_toNat (err : BitVec 4) (valid : Bool) (value : Value) :
    (responseWord err valid value).toNat =
      (errFlag err).toNat * 2 ^ 31 + valid.toNat * 2 ^ 30 + err.toNat * 2 ^ 24 +
        (if valid then value else 0#24).toNat := by
  simp only [responseWord, append_toNat, BitVec.toNat_ofBool, BitVec.toNat_ofNat]
  omega

/-- R52: a response read back field by field. -/
theorem responseValid_responseWord (err : BitVec 4) (valid : Bool) (value : Value) :
    responseValid (responseWord err valid value) = valid := by
  refine getLsbD_eq_of_place 30 ?_
  have := (if valid then value else 0#24).isLt
  have := valid.toNat_lt
  rw [responseWord_toNat]
  omega

theorem responseValue_responseWord (err : BitVec 4) (valid : Bool) (value : Value) :
    responseValue (responseWord err valid value) = if valid then value else 0#24 := by
  refine extractLsb'_eq_of_place 0 ?_
  rw [responseWord_toNat]
  omega

/-- R28: STATUS as a number, its fields at their places. -/
theorem statusWord_toNat (s : State) :
    (statusWord s).toNat = s.rs.level.toNat * 2 ^ 12 + s.b900.outN.toNat * 2 ^ 9 + s.b900.n.toNat * 2 ^ 6 +
      s.txt.pend.toNat * 2 ^ 5 + s.rs.valid.toNat * 2 ^ 4 + s.err.toNat := by
  simp only [statusWord, append_toNat, BitVec.toNat_ofBool, BitVec.toNat_ofNat]
  omega

/-- Settles O19: each field is the digit of STATUS's number at its place (`statusWord_toNat`). -/
theorem statusFields : Obligations.StatusFields := by
  intro s
  have := s.txt.pend.toNat_lt
  have := s.rs.valid.toNat_lt
  refine ⟨extractLsb'_eq_of_place 0 ?_, getLsbD_eq_of_place 4 ?_, getLsbD_eq_of_place 5 ?_,
    extractLsb'_eq_of_place 6 ?_, extractLsb'_eq_of_place 9 ?_, extractLsb'_eq_of_place 12 ?_,
    extractLsb'_eq_of_place (v := 0#8) 16 ?_, rfl, rfl⟩
  all_goals
    simp only [statusWord_toNat, BitVec.toNat_ofNat]
    omega
  

/-! ### What each command does to the record -/

/-- What a command other than SRST can do before it answers: `u` is `s` with the unit register that the command
writes, or with `ERR`. Every effect but `kept` needs `ERR = 0` (R119). -/
inductive Effect (s : State) : Instr → State → Prop where
  /-- A read, a refused command, a flush with no value pending. -/
  | kept (i : Instr) : Effect s i s
  /-- R118. -/
  | raised (i : Instr) (e : ErrorCode) (clear : s.err = 0) : Effect s i { s with err := e.code }
  /-- R66: the first value of a pair. -/
  | held (v : Nat) (clear : s.err = 0) (legal : v ≤ 29) :
      Effect s (.txtPush v) { s with txt := Base30Unit.hold v }
  /-- R66, R67: a pair is completed. -/
  | paired (i : Instr) (text : isText i = true) (clear : s.err = 0) :
      Effect s i { s with txt := Base30Unit.clear }
  /-- R71: a byte that does not complete a group. -/
  | accumulated (b : Nat) (clear : s.err = 0) (part : s.b900.n.toNat ≠ 5) :
      Effect s (.b900Push b) { s with b900 := s.b900.accumulate b }
  /-- R71: the sixth byte of a group. -/
  | converted (b : Nat) (clear : s.err = 0) (full : s.b900.n.toNat = 5) :
      Effect s (.b900Push b) { s with b900 := s.b900.convert b }
  /-- R73. -/
  | flushed (clear : s.err = 0) : Effect s .b900Flush { s with b900 := s.b900.flush }
  /-- R81: a level 0 to 8 that has a table. -/
  | started (l : Nat) (clear : s.err = 0) (le : l ≤ 8) (present : coefPresent s.params l = true) :
      Effect s (.rsInit l) { s with rs := RsUnit.start l }
  /-- R82, once a level is chosen. -/
  | fed (d : Nat) (clear : s.err = 0) (valid : s.rs.valid = true) :
      Effect s (.rsFeed d) { s with rs := s.rs.feed s.params d }

/-- The result answers after an effect of `i`. -/
def Answers (s : State) (i : Instr) (r : Result) : Prop :=
  ∃ u valid value, r = .next (State.answer u valid value) ∧ Effect s i u

theorem Effect.answers {s u : State} {i : Instr} (h : Effect s i u) (valid : Bool) (value : Value) :
    Answers s i (respond valid value u) := ⟨u, valid, value, rfl, h⟩

theorem Answers.of_unlessRefused {s : State} {i : Instr} {run : Result}
    (h : s.err = 0 → Answers s i run) : Answers s i (unlessRefused s run) := by
  unfold unlessRefused
  split
  · next hs => exact h hs
  · exact (Effect.kept i).answers _ _

theorem Answers.of_raiseIfClear {s : State} {i : Instr} (e : ErrorCode) :
    Answers s i (raiseIfClear e s) := by
  unfold raiseIfClear
  split
  · next hs => exact (Effect.raised i e hs).answers _ _
  · exact (Effect.kept i).answers _ _

/-- Every command but SRST (`exec_srst`) has one of the effects and answers. -/
theorem exec_effect {i : Instr} (hi : i ≠ .srst) (s : State) : Answers s i (exec i s) := by
  cases i with
  | nop => exact (Effect.kept _).answers _ _
  | srst => exact absurd rfl hi
  | rdreg idx =>
    show Answers s _ (execRdreg idx s)
    unfold execRdreg
    split
    · exact (Effect.kept _).answers _ _
    · exact .of_raiseIfClear _
  | txtPush v =>
    refine .of_unlessRefused fun clear => ?_
    split
    · next legal =>
      split
      · exact (Effect.paired _ rfl clear).answers _ _
      · exact (Effect.held v clear (of_decide_eq_true legal)).answers _ _
    · exact (Effect.raised _ _ clear).answers _ _
  | txtFlush =>
    refine .of_unlessRefused fun clear => ?_
    split
    · exact (Effect.paired _ rfl clear).answers _ _
    · exact (Effect.kept _).answers _ _
  | b900Push b =>
    refine .of_unlessRefused fun clear => ?_
    split
    · next full => exact (Effect.converted b clear (Nat.succ.inj full)).answers _ _
    · next part => exact (Effect.accumulated b clear (mt (congrArg _) part)).answers _ _
  | b900Flush => exact .of_unlessRefused fun clear => (Effect.flushed clear).answers _ _
  | b900Mode len => exact .of_unlessRefused fun _ => (Effect.kept _).answers _ _
  | rsInit l =>
    refine .of_unlessRefused fun clear => ?_
    split
    · next legal =>
      obtain ⟨le, present⟩ := Bool.and_eq_true_iff.mp legal
      exact (Effect.started l clear (of_decide_eq_true le) present).answers _ _
    · exact (Effect.raised _ _ clear).answers _ _
  | rsFeed d =>
    refine .of_unlessRefused fun clear => ?_
    split
    · next valid =>
      split
      · exact (Effect.fed d clear valid).answers _ _
      · exact (Effect.raised _ _ clear).answers _ _
    · exact (Effect.raised _ _ clear).answers _ _
  | rsRdout i =>
    refine .of_unlessRefused fun clear => ?_
    split
    · split
      · exact (Effect.kept _).answers _ _
      · exact (Effect.raised _ _ clear).answers _ _
    · exact (Effect.raised _ _ clear).answers _ _

/-! ### Legal records, unit by unit -/

/-- The RS part of `Legal` (R15, R16, R19, R30). -/
structure RsUnit.Legal (p : Params) (u : RsUnit) : Prop where
  level : u.level.toNat ≤ 8
  unselected : u.valid = false → u = RsUnit.reset
  selected : u.valid = true → coefPresent p u.level.toNat = true
  entries : ∀ j, (entryAt u.acc j).toNat ≤ 928
  unused : ∀ j, u.k ≤ j → entryAt u.acc j = 0

/-- The base-30 part of `Legal` (R22). -/
structure Base30Unit.Legal (u : Base30Unit) : Prop where
  hi : u.hi.toNat ≤ 29
  hiClear : u.pend = false → u.hi = 0

/-- The base-900 part of `Legal` (R23 to R26). -/
structure Base900Unit.Legal (u : Base900Unit) : Prop where
  groupCount : u.n.toNat ≤ 5
  groupAcc : u.acc.toNat < 256 ^ u.n.toNat
  outCount : u.outN.toNat ≤ 5
  outRange : ∀ j, (entryAt u.out j).toNat ≤ 899
  outUnused : ∀ j, u.outN.toNat ≤ j → entryAt u.out j = 0

/-- The part of `Legal` that speaks of the architectural record and the parameters. -/
structure LegalRecord (s : State) : Prop where
  err : s.err.toNat ≤ 4
  rs : s.rs.Legal s.params
  txt : s.txt.Legal
  b900 : s.b900.Legal

/-- The part of `Legal` that speaks of the port (R52). -/
def ShowsErr (s : State) : Prop :=
  ∀ r, s.port.phase = .done r → r = responseWord s.err (responseValid r) (responseValue r)

/-- `Legal`, taken apart once. -/
theorem legal_iff {s : State} : Legal s ↔ LegalRecord s ∧ ShowsErr s := by
  constructor
  · intro h
    exact ⟨⟨h.err, ⟨h.level, h.unselected, h.selected, h.entries, h.unused⟩, ⟨h.hi, h.hiClear⟩,
      ⟨h.groupCount, h.groupAcc, h.outCount, h.outRange, h.outUnused⟩⟩, h.ready⟩
  · rintro ⟨⟨err, rs, txt, b900⟩, ready⟩
    exact ⟨err, rs.level, rs.unselected, rs.selected, rs.entries, rs.unused, txt.hi, txt.hiClear,
      b900.groupCount, b900.groupAcc, b900.outCount, b900.outRange, b900.outUnused, ready⟩

/-- The record's legality sees the record and the parameters only. -/
theorem LegalRecord.of_arch {s t : State} (h : LegalRecord s) (ha : t.arch = s.arch)
    (hp : t.params = s.params) : LegalRecord t := by
  obtain ⟨err, rs, txt, b900⟩ := h
  injection ha with he hr ht hb
  rw [← he] at err
  rw [← hr, ← hp] at rs
  rw [← ht] at txt
  rw [← hb] at b900
  exact ⟨err, rs, txt, b900⟩

/-! ### The units after each effect -/

theorem entryAt_zeros_le {n : Nat} (bound j : Nat) :
    (entryAt (Vector.replicate n (0 : Codeword)) j).toNat ≤ bound := by
  rw [entryAt_zeros]
  exact Nat.zero_le bound

theorem rsReset_legal (p : Params) : RsUnit.reset.Legal p where
  level := by decide
  unselected _ := rfl
  selected := nofun
  entries := entryAt_zeros_le 928
  unused j _ := entryAt_zeros j

theorem rsStart_legal {p : Params} {l : Nat} (le : l ≤ 8) (present : coefPresent p l = true) :
    (RsUnit.start l).Legal p := by
  have level : (RsUnit.start l).level.toNat = l := by
    simp only [RsUnit.start, BitVec.toNat_ofNat]; omega
  exact
    { level := level.trans_le le
      unselected := nofun
      selected := fun _ => by rw [level]; exact present
      entries := entryAt_zeros_le 928
      unused := fun j _ => entryAt_zeros j }

/-- R84: the step writes residues, below `K` only. -/
theorem RsUnit.Legal.feed {p : Params} {u : RsUnit} (h : u.Legal p) (valid : u.valid = true) (d : Nat) :
    (u.feed p d).Legal p where
  level := h.level
  unselected hv := absurd (valid.symm.trans hv) nofun
  selected _ := h.selected valid
  entries j := by
    show (entryAt (rsStep p u.level.toNat d u.acc) j).toNat ≤ 928
    rw [rsStep_entry]
    split
    · rw [ofNat_toNat_of_lt (reducedEntry_lt _ _ _)]
      exact Nat.le_of_lt_succ (reducedEntry_lt _ _ _)
    · exact h.entries j
  unused j hj := by
    have beyond : Config.corrections u.level.toNat ≤ j := hj
    show entryAt (rsStep p u.level.toNat d u.acc) j = 0
    rw [rsStep_entry, if_neg (by omega)]
    exact h.unused j hj

theorem base30Clear_legal : Base30Unit.clear.Legal := ⟨by decide, fun _ => rfl⟩

theorem base30Hold_legal {v : Nat} (legal : v ≤ 29) : (Base30Unit.hold v).Legal where
  hi := by simp only [Base30Unit.hold, BitVec.toNat_ofNat]; omega
  hiClear := nofun

theorem base900Reset_legal : Base900Unit.reset.Legal where
  groupCount := by decide
  groupAcc := by decide
  outCount := by decide
  outRange := entryAt_zeros_le 899
  outUnused j _ := entryAt_zeros j

theorem accumulate_n {u : Base900Unit} (h : u.n.toNat < 5) (b : Nat) :
    (u.accumulate b).n.toNat = u.n.toNat + 1 := by
  simp only [Base900Unit.accumulate, BitVec.toNat_ofNat]; omega

/-- R24: five bytes fit the register, so the accumulation is exact and stays below `256^B_N`. -/
theorem accumulate_acc {u : Base900Unit} (h : u.n.toNat < 5) (hacc : u.acc.toNat < 256 ^ u.n.toNat) {b : Nat}
    (hb : b < 256) :
    (u.accumulate b).acc.toNat = u.acc.toNat * 256 + b ∧
      u.acc.toNat * 256 + b < 256 ^ (u.n.toNat + 1) := by
  have bound : u.acc.toNat * 256 + b < 256 ^ (u.n.toNat + 1) := by rw [Nat.pow_succ]; omega
  have fits : 256 ^ (u.n.toNat + 1) ≤ 256 ^ 5 := Nat.pow_le_pow_right (by decide) h
  refine ⟨?_, bound⟩
  simp only [Base900Unit.accumulate, pushedAcc, BitVec.toNat_ofNat]
  omega

theorem Base900Unit.Legal.accumulate {u : Base900Unit} (h : u.Legal) (part : u.n.toNat ≠ 5) {b : Nat}
    (hb : b < 256) : (u.accumulate b).Legal := by
  have lt : u.n.toNat < 5 := lt_of_le_of_ne h.groupCount part
  obtain ⟨acc, bound⟩ := accumulate_acc lt h.groupAcc hb
  exact
    { groupCount := by rw [accumulate_n lt]; exact lt
      groupAcc := by rw [accumulate_n lt, acc]; exact bound
      outCount := h.outCount
      outRange := h.outRange
      outUnused := h.outUnused }

/-- R72: every remainder of the division loop is below 900. -/
theorem conv900Loop_range (m a : Nat) {out : Vector Codeword 5} (h : ∀ j, (entryAt out j).toNat ≤ 899) (j : Nat) :
    (entryAt (conv900Loop m a out) j).toNat ≤ 899 := by
  induction m generalizing a out with
  | zero => exact h j
  | succ m ih =>
    refine ih _ fun i => ?_
    rw [entryAt_set]
    split
    · simp only [Config.groupBase, BitVec.toNat_ofNat]; omega
    · exact h i

theorem convert_legal (u : Base900Unit) (b : Nat) : (u.convert b).Legal where
  groupCount := Nat.zero_le 5
  groupAcc := Nat.one_pos
  outCount := Nat.le_refl 5
  outRange := conv900Loop_range _ _ (entryAt_zeros_le 899)
  outUnused j hj := entryAt_beyond _ j hj

theorem flushEntry_range (u : Base900Unit) (j : Nat) : (flushEntry u j).toNat ≤ 255 := by
  unfold flushEntry
  split
  · rw [BitVec.toNat_setWidth]; omega
  · decide

theorem flush_entry (u : Base900Unit) {j : Nat} (h : j < 5) : entryAt u.flush.out j = flushEntry u j := by
  interval_cases j <;> rfl

theorem Base900Unit.Legal.flush {u : Base900Unit} (h : u.Legal) : u.flush.Legal where
  groupCount := Nat.zero_le 5
  groupAcc := Nat.one_pos
  outCount := h.groupCount
  outRange j := by
    by_cases hj : j < 5
    · rw [flush_entry u hj]; exact (flushEntry_range u j).trans (by decide)
    · rw [entryAt_beyond _ j (Nat.le_of_not_lt hj)]; decide
  outUnused j hj := by
    by_cases h5 : j < 5
    · rw [flush_entry u h5]; exact if_neg (Nat.not_lt.mpr hj)
    · exact entryAt_beyond _ j (Nat.le_of_not_lt h5)

/-! ### Commands, steps and edges keep the legal states -/

theorem LegalRecord.toResetState {s : State} : LegalRecord s.toResetState :=
  ⟨Nat.zero_le 4, rsReset_legal _, base30Clear_legal, base900Reset_legal⟩

theorem LegalRecord.raise {s : State} (h : LegalRecord s) (e : ErrorCode) :
    LegalRecord { s with err := e.code } :=
  ⟨code_le_four e, h.rs, h.txt, h.b900⟩

/-- A command with an operand its word can carry keeps the record legal. -/
theorem Effect.keeps_legal {s u : State} {i : Instr} (h : Effect s i u) (hs : LegalRecord s)
    (hi : i.WellFormed) : LegalRecord u := by
  cases h with
  | kept => exact hs
  | raised _ e => exact hs.raise e
  | held v _ legal => exact ⟨hs.err, hs.rs, base30Hold_legal legal, hs.b900⟩
  | paired => exact ⟨hs.err, hs.rs, base30Clear_legal, hs.b900⟩
  | accumulated b _ part => exact ⟨hs.err, hs.rs, hs.txt, hs.b900.accumulate part (of_decide_eq_true hi)⟩
  | converted b => exact ⟨hs.err, hs.rs, hs.txt, convert_legal _ b⟩
  | flushed => exact ⟨hs.err, hs.rs, hs.txt, hs.b900.flush⟩
  | started l _ le present => exact ⟨hs.err, rsStart_legal le present, hs.txt, hs.b900⟩
  | fed d _ valid => exact ⟨hs.err, hs.rs.feed valid d, hs.txt, hs.b900⟩

/-- R52: a response is made of its own `VALID` and `VALUE`, which is what `Legal.ready` asks. -/
theorem responseWord_of_fields (err : BitVec 4) (valid : Bool) (value : Value) :
    responseWord err valid value =
      responseWord err (responseValid (responseWord err valid value))
        (responseValue (responseWord err valid value)) := by
  rw [responseValid_responseWord, responseValue_responseWord]
  cases valid <;> rfl

theorem LegalRecord.answer {u : State} (h : LegalRecord u) (valid : Bool) (value : Value) :
    Legal (u.answer valid value) :=
  legal_iff.mpr ⟨h.of_arch rfl rfl, fun r hr => by cases hr; exact responseWord_of_fields _ _ _⟩

theorem exec_keeps_legal {i : Instr} {s t : State} (hi : i.WellFormed) (hs : LegalRecord s)
    (h : exec i s = .next t) : Legal t := by
  by_cases hsrst : i = .srst
  · subst hsrst
    cases h
    exact LegalRecord.toResetState.answer _ _
  · obtain ⟨u, valid, value, hu, effect⟩ := exec_effect hsrst s
    cases h.symm.trans hu
    exact (effect.keeps_legal hs hi).answer _ _

/-- What decodes fits its fields (R48). -/
theorem wellFormed_of_decode {w : Word} {i : Instr} (h : decode w = .command i) : i.WellFormed := by
  have hn := hasNumber_of_decode h
  cases i with
  | nop | srst | txtFlush | b900Flush => rfl
  | rdreg | txtPush | b900Push | b900Mode | rsInit | rsFeed | rsRdout =>
    obtain ⟨-, rfl⟩ := hn
    exact decide_eq_true (Nat.mod_lt _ (by decide))

theorem runWord_keeps_legal {w : Word} {s t : State} (hs : LegalRecord s) (h : runWord w s = .next t) :
    Legal t := by
  cases hd : decode w with
  | command i =>
    rw [runWord_command hd] at h
    exact exec_keeps_legal (wellFormed_of_decode hd) hs h
  | illegal why =>
    rw [runWord_illegal hd, execIllegal] at h
    by_cases clear : s.err = 0
    · rw [raiseIfClear_of_clear clear] at h
      cases h
      exact (hs.raise _).answer _ _
    · rw [raiseIfClear_of_latched clear] at h
      cases h
      exact hs.answer _ _

theorem takeResponse_keeps_legal {s : State} (h : Legal s) : Legal (takeResponse s) := by
  obtain ⟨record, shows⟩ := legal_iff.mp h
  refine legal_iff.mpr ⟨record.of_arch (takeResponse_arch s) (takeResponse_params s), fun r hr => ?_⟩
  rw [takeResponse_err]
  unfold takeResponse at hr
  split at hr
  · cases hr
  · exact shows r hr

theorem deliver_keeps_legal {w : Word} {s t : State} (hs : LegalRecord s)
    (h : deliver (runWord w s) = .next t) : Legal t := by
  obtain ⟨u, hu⟩ := runWord_total w s
  rw [hu, deliver_next] at h
  cases h
  exact takeResponse_keeps_legal (runWord_keeps_legal hs hu)

theorem hardReset_legal (s : State) : Legal (hardReset s) :=
  legal_iff.mpr ⟨LegalRecord.toResetState.of_arch rfl rfl, nofun⟩

/-- `Legal` sees the record, the parameters and the port's phase only. -/
theorem legal_of_same {s t : State} (h : Legal s) (ha : t.arch = s.arch) (hp : t.params = s.params)
    (hphase : t.port.phase = s.port.phase) : Legal t := by
  obtain ⟨record, shows⟩ := legal_iff.mp h
  refine legal_iff.mpr ⟨record.of_arch ha hp, fun r hr => ?_⟩
  have he : t.err = s.err := congrArg Arch.err ha
  rw [he]
  exact shows r (hphase ▸ hr)

theorem hostEvent_keeps_legal {e : HostEvent} {s t : State} (hs : Legal s) (h : hostEvent e s = .next t) :
    Legal t := by
  obtain ⟨record, -⟩ := legal_iff.mp hs
  cases e with
  | command w => exact deliver_keeps_legal record h
  | unstable w later =>
    obtain ⟨n, hn⟩ := afterChoice_eq s w later
    rw [hostEvent, hn] at h
    exact deliver_keeps_legal (s := { s with freeCount := n }) (record.of_arch rfl rfl) h
  | withdrawn w => cases h; exact hs
  | hardReset => cases h; exact hardReset_legal s

/-- Settles O39: every branch of a transaction is a hardware reset, a word that runs, a response taken, or no
change to what `Legal` sees. -/
theorem stepKeepsLegalStates : Obligations.StepKeepsLegalStates := by
  intro s t hs h
  obtain ⟨record, -⟩ := legal_iff.mp hs
  unfold step transact at h
  split at h
  · cases h; exact hardReset_legal _
  · split at h
    · exact deliver_keeps_legal record h
    · cases h; exact takeResponse_keeps_legal hs
    · split at h
      · cases h; exact hs
      · next e rest _ =>
        exact hostEvent_keeps_legal (s := { s with line := rest }) (legal_of_same hs rfl rfl rfl) h

/-- Settles O41: an edge resets, accepts a word (the record unchanged, no response ready), runs the word in flight,
or takes a response; what it notes of the pins `Legal` does not see. -/
theorem clockEdgeKeepsLegalStates : Obligations.ClockEdgeKeepsLegalStates := by
  intro p s t hs h
  obtain ⟨record, -⟩ := legal_iff.mp hs
  cases hr : p.rstN with
  | false =>
    rw [clockEdge_of_reset hr] at h
    cases h
    exact hardReset_legal s
  | true =>
    cases hp : s.port.phase with
    | idle =>
      rw [clockEdge_of_idle hr hp] at h
      cases h
      split
      · obtain ⟨n, hn⟩ := acceptCommand_eq p s
        rw [hn]
        exact legal_iff.mpr ⟨record.of_arch rfl rfl, nofun⟩
      · exact legal_of_same hs rfl rfl rfl
    | busy w left =>
      rw [clockEdge_of_busy hr hp] at h
      split at h
      · exact runWord_keeps_legal (s := noteOffer p s) (record.of_arch rfl rfl) h
      · cases h
        exact legal_iff.mpr ⟨record.of_arch rfl rfl, nofun⟩
    | done r =>
      rw [clockEdge_of_done hr hp] at h
      cases h
      split
      · exact legal_of_same (takeResponse_keeps_legal hs) rfl rfl rfl
      · exact legal_of_same hs rfl rfl rfl

/-! ### Who writes a register -/

/-- Settles O38: of the effects only `started` changes the valid bit or the level; a feed keeps both. -/
theorem levelWrittenOnlyByRsInit : Obligations.LevelWrittenOnlyByRsInit := by
  intro i s t h changed
  by_cases hi : i = .srst
  · exact .inl hi
  obtain ⟨u, valid, value, hu, effect⟩ := exec_effect hi s
  cases h.symm.trans hu
  have same : ¬ (s.rs.valid ≠ s.rs.valid ∨ s.rs.level ≠ s.rs.level) := by simp
  cases effect with
  | started l clear le present =>
    have level : (BitVec.ofNat 4 l).toNat = l := by rw [BitVec.toNat_ofNat]; omega
    exact .inr ⟨l, rfl, clear, le, present, rfl, level⟩
  | kept | raised | held | paired | accumulated | converted | flushed | fed => exact absurd changed same

/-- R71: a push that completes a group leaves what the bytes alone determine. -/
theorem execB900Push_completes {s : State} (clear : s.err = 0) (full : s.b900.n = 5) (b : Nat) :
    exec (.b900Push b) s = .next (State.answer { s with b900 := s.b900.convert b } true 5) := by
  show execB900Push b s = _
  rw [execB900Push, unlessRefused_of_clear clear, if_pos (by rw [full]; rfl), respond_eq]

/-- R71: a push that does not complete a group. -/
theorem execB900Push_accumulates {s : State} (clear : s.err = 0) (part : s.b900.n.toNat < 5) (b : Nat) :
    exec (.b900Push b) s = .next (State.answer { s with b900 := s.b900.accumulate b } false 0) := by
  show execB900Push b s = _
  rw [execB900Push, unlessRefused_of_clear clear, if_neg (by simp only [Config.groupBytes]; omega), respond_eq]

/-- Settles O29: of the effects only `converted` and `flushed` change the results, and `convert` does not read
those it overwrites. -/
theorem bOutWrittenOnlyByConversionFlushReset : Obligations.BOutWrittenOnlyByConversionFlushReset := by
  constructor
  · intro i s t h changed
    by_cases hi : i = .srst
    · exact .inl hi
    obtain ⟨u, valid, value, hu, effect⟩ := exec_effect hi s
    cases h.symm.trans hu
    have same : ¬ (s.b900.out ≠ s.b900.out ∨ s.b900.outN ≠ s.b900.outN) := by simp
    cases effect with
    | converted b clear full => exact .inr ⟨clear, .inr ⟨b, rfl, BitVec.eq_of_toNat_eq full⟩⟩
    | flushed clear => exact .inr ⟨clear, .inl rfl⟩
    | kept | raised | held | paired | accumulated | started | fed => exact absurd changed same
  · intro s s' b clear full clear' full' hacc
    refine ⟨_, _, execB900Push_completes clear full b, execB900Push_completes clear' full' b, ?_, clear⟩
    show s'.b900.convert b = s.b900.convert b
    simp only [Base900Unit.convert, pushedAcc, hacc]

/-! ### Runs of one command over a list of operands -/

/-- A command whose operand fits decodes back from its word (R46 to R49). -/
theorem decode_encode {i : Instr} (hi : i.WellFormed) : decode (encode i) = .command i := by
  refine decode_of_hasNumber ?_
  rw [encode_toNat]
  cases i with
  | nop | srst | txtFlush | b900Flush => rfl
  | rdreg v | txtPush v | b900Push v | b900Mode v | rsInit v | rsFeed v | rsRdout v =>
    have fits := of_decide_eq_true hi
    constructor <;> simp only [fitsField] at fits ⊢ <;> omega

/-- A run goes on from what its first command leaves. -/
theorem runCommands_step {i : Instr} {s u : State} {valid : Bool} {value : Value} (is : List Instr)
    (idle : s.port.phase = .idle) (hi : i.WellFormed) (h : exec i s = .next (u.answer valid value)) :
    runCommands (i :: is) s = runCommands is (takeResponse (u.answer valid value)) :=
  runCommands_cons is idle (decode_encode hi) h

theorem codeword_wellFormed {d : Nat} (hd : d ≤ 928) : (Instr.rsFeed d).WellFormed :=
  decide_eq_true (show d < 2 ^ 10 by omega)

/-- R18: feeds of legal codewords count up modulo 2^16. -/
theorem feeds_count (ds : List Nat) {s : State} (idle : s.port.phase = .idle) (clear : s.err = 0)
    (valid : s.rs.valid = true) (legal : ∀ d ∈ ds, d ≤ 928) :
    ∃ t, runCommands (ds.map Instr.rsFeed) s = .next t ∧
      t.rs.dcnt = s.rs.dcnt + BitVec.ofNat 16 ds.length := by
  induction ds generalizing s with
  | nil => exact ⟨_, runWords_nil s, (BitVec.add_zero _).symm⟩
  | cons d ds ih =>
    obtain ⟨hd, hds⟩ := List.forall_mem_cons.mp legal
    have fed := execRsFeed_of_legal s clear valid (decide_eq_true hd)
    obtain ⟨t, ht, count⟩ := ih (s := takeResponse (State.answer { s with rs := s.rs.feed s.params d } false 0))
      rfl clear valid hds
    refine ⟨t, (runCommands_step _ idle (codeword_wellFormed hd) fed).trans ht, count.trans ?_⟩
    show s.rs.dcnt + 1 + BitVec.ofNat 16 ds.length = s.rs.dcnt + BitVec.ofNat 16 (ds.length + 1)
    rw [BitVec.add_assoc, BitVec.ofNat_add, BitVec.add_comm 1]
    rfl

/-! ### The bytes of a group (R24) -/

theorem bytesValue_append (bytes : List Nat) (b : Nat) :
    bytesValue (bytes ++ [b]) = bytesValue bytes * 256 + b := by
  rw [bytesValue, List.foldl_append]
  rfl

/-- R24: byte `j` stands at its place in the accumulation. -/
theorem bytesValue_byte {bytes : List Nat} (hb : ∀ b ∈ bytes, b < 256) {j : Nat} (hj : j < bytes.length) :
    bytesValue bytes / 256 ^ (bytes.length - 1 - j) % 256 = bytes.getD j 0 := by
  induction bytes using List.reverseRecOn with
  | nil => exact absurd hj (Nat.not_lt_zero j)
  | append_singleton bytes b ih =>
    have hlast : b < 256 := hb b (by simp)
    rw [List.length_append, List.length_singleton] at hj ⊢
    rw [bytesValue_append]
    rcases Nat.lt_or_eq_of_le (Nat.le_of_lt_succ hj) with lt | rfl
    · have place : bytes.length + 1 - 1 - j = (bytes.length - 1 - j) + 1 := by omega
      have quotient : (bytesValue bytes * 256 + b) / 256 = bytesValue bytes := by omega
      rw [place, Nat.pow_succ', ← Nat.div_div_eq_div_mul, quotient,
        ih (fun x hx => hb x (List.mem_append_left _ hx)) lt, List.getD_append _ _ _ _ lt]
    · rw [List.getD_append_right _ _ _ _ (Nat.le_refl _)]
      simp only [Nat.add_sub_cancel, Nat.sub_self, pow_zero, Nat.div_one, List.getD_cons_zero]
      omega

/-- Pushing bytes that do not complete a group accumulates them and goes on; the results are left alone. -/
theorem pushes_accumulate (bytes : List Nat) (rest : List Instr) {s : State} (idle : s.port.phase = .idle)
    (clear : s.err = 0) (room : s.b900.n.toNat + bytes.length ≤ 5)
    (hacc : s.b900.acc.toNat < 256 ^ s.b900.n.toNat) (hb : ∀ b ∈ bytes, b < 256) :
    ∃ t, runCommands (bytes.map Instr.b900Push ++ rest) s = runCommands rest t ∧
      t.port.phase = .idle ∧ t.err = 0 ∧ t.b900.n.toNat = s.b900.n.toNat + bytes.length ∧
      t.b900.acc.toNat = bytes.foldl (fun acc b => acc * 256 + b) s.b900.acc.toNat ∧
      t.b900.acc.toNat < 256 ^ t.b900.n.toNat := by
  induction bytes generalizing s with
  | nil => exact ⟨s, rfl, idle, clear, rfl, rfl, hacc⟩
  | cons b bytes ih =>
    rw [List.length_cons] at room
    obtain ⟨hlt, hbytes⟩ := List.forall_mem_cons.mp hb
    have part : s.b900.n.toNat < 5 := by omega
    have pushed := execB900Push_accumulates clear part b
    have n := accumulate_n part b
    obtain ⟨acc, bound⟩ := accumulate_acc part hacc hlt
    obtain ⟨t, ht, idle', clear', hn, hval, hbound⟩ :=
      ih (s := takeResponse (State.answer { s with b900 := s.b900.accumulate b } false 0)) rfl clear
        (show (s.b900.accumulate b).n.toNat + _ ≤ 5 by omega)
        (show (s.b900.accumulate b).acc.toNat < 256 ^ (s.b900.accumulate b).n.toNat by rw [n, acc]; exact bound)
        hbytes
    have fits : (Instr.b900Push b).WellFormed := decide_eq_true hlt
    refine ⟨t, (runCommands_step _ idle fits pushed).trans ht, idle', clear', ?_, ?_, hbound⟩
    · rw [hn]
      show (s.b900.accumulate b).n.toNat + _ = _
      rw [n, List.length_cons]; omega
    · rw [hval]
      show List.foldl _ (s.b900.accumulate b).acc.toNat bytes = _
      rw [acc, List.foldl_cons]

/-- A group begun empty holds its bytes' value. -/
theorem pushes_hold_bytesValue (bytes : List Nat) (rest : List Instr) {s : State}
    (idle : s.port.phase = .idle) (clear : s.err = 0) (hn : s.b900.n = 0) (hacc : s.b900.acc = 0)
    (room : bytes.length ≤ 5) (hb : ∀ b ∈ bytes, b < 256) :
    ∃ t, runCommands (bytes.map Instr.b900Push ++ rest) s = runCommands rest t ∧
      t.port.phase = .idle ∧ t.err = 0 ∧ t.b900.n.toNat = bytes.length ∧
      t.b900.acc.toNat = bytesValue bytes ∧ t.b900.acc.toNat < 256 ^ t.b900.n.toNat := by
  have n0 : s.b900.n.toNat = 0 := by rw [hn]; rfl
  have acc0 : s.b900.acc.toNat = 0 := by rw [hacc]; rfl
  have run := pushes_accumulate bytes rest idle clear (by omega) (by rw [n0, acc0]; decide) hb
  rwa [n0, acc0, Nat.zero_add] at run

/-- Settles O27: up to five bytes accumulate (`pushes_hold_bytesValue`) and stand at their places
(`bytesValue_byte`); the sixth push converts the value of all six. -/
theorem groupAccumulationHoldsBytes : Obligations.GroupAccumulationHoldsBytes := by
  constructor
  · intro s bytes idle clear hn hacc room hb
    obtain ⟨t, ht, -, -, n, acc, bound⟩ := pushes_hold_bytesValue bytes [] idle clear hn hacc room hb
    rw [List.append_nil] at ht
    refine ⟨_, ht.trans (runWords_nil t), n, acc, bound, fun j hj => ?_⟩
    show (t.b900.acc.extractLsb' _ 8).toNat = _
    rw [toNat_extractLsb', acc, Nat.pow_mul]
    exact bytesValue_byte hb hj
  · intro s bytes idle clear hn hacc six hb
    obtain ⟨first, b, rfl⟩ : ∃ first b, bytes = first ++ [b] :=
      (List.eq_nil_or_concat' bytes).resolve_left (by rintro rfl; cases six)
    have five : first.length = 5 := by simpa using six
    obtain ⟨t, ht, idle', clear', n, acc, -⟩ := pushes_hold_bytesValue first [.b900Push b] idle clear hn hacc
      five.le fun x hx => hb x (List.mem_append_left _ hx)
    have full : t.b900.n = 5 := BitVec.eq_of_toNat_eq (n.trans five)
    have fits : (Instr.b900Push b).WellFormed := decide_eq_true (hb b (by simp))
    rw [List.map_append]
    refine ⟨_, ht.trans ((runCommands_step [] idle' fits (execB900Push_completes clear' full b)).trans
      (runWords_nil _)), rfl, rfl, ?_⟩
    show conv900 (t.b900.acc.toNat * 256 + b) = _
    rw [acc, bytesValue_append]

/-! ### What a command does not observe: related states give the same response and related states -/

/-- Both results answer alike and leave related states. -/
def Alike (R : State → State → Prop) (r₁ r₂ : Result) : Prop :=
  ∃ t₁ t₂, r₁ = .next t₁ ∧ r₂ = .next t₂ ∧ readyResponse t₁ = readyResponse t₂ ∧ R t₁ t₂

/-- A relation that the end of a command and a raised error keep. -/
structure AnswerClosed (R : State → State → Prop) : Prop where
  err : ∀ {s₁ s₂}, R s₁ s₂ → s₁.err = s₂.err
  answer : ∀ {s₁ s₂}, R s₁ s₂ → ∀ valid value, R (s₁.answer valid value) (s₂.answer valid value)
  withErr : ∀ {s₁ s₂}, R s₁ s₂ → ∀ err, R { s₁ with err := err } { s₂ with err := err }

section Alike
variable {R : State → State → Prop} {s₁ s₂ : State}

theorem Alike.ite {c₁ c₂ : Prop} [Decidable c₁] [Decidable c₂] {x₁ x₂ y₁ y₂ : Result} (hc : c₁ ↔ c₂)
    (hx : c₁ → Alike R x₁ x₂) (hy : Alike R y₁ y₂) :
    Alike R (if c₁ then x₁ else y₁) (if c₂ then x₂ else y₂) := by
  by_cases h : c₁
  · rw [if_pos h, if_pos (hc.mp h)]; exact hx h
  · rw [if_neg h, if_neg (mt hc.mpr h)]; exact hy

theorem AnswerClosed.respond (hR : AnswerClosed R) (h : R s₁ s₂) (valid : Bool) (value : Value) :
    Alike R (respond valid value s₁) (respond valid value s₂) :=
  ⟨_, _, rfl, rfl, by rw [answer_ready, answer_ready, hR.err h], hR.answer h valid value⟩

theorem AnswerClosed.raise (hR : AnswerClosed R) (h : R s₁ s₂) (e : ErrorCode) :
    Alike R (raise e s₁) (raise e s₂) :=
  hR.respond (hR.withErr h e.code) false 0

theorem AnswerClosed.unlessRefused (hR : AnswerClosed R) (h : R s₁ s₂) {run₁ run₂ : Result}
    (hrun : Alike R run₁ run₂) : Alike R (unlessRefused s₁ run₁) (unlessRefused s₂ run₂) :=
  .ite (by rw [hR.err h]) (fun _ => hrun) (hR.respond h false 0)

theorem AnswerClosed.raiseIfClear (hR : AnswerClosed R) (h : R s₁ s₂) (e : ErrorCode) :
    Alike R (raiseIfClear e s₁) (raiseIfClear e s₂) :=
  .ite (by rw [hR.err h]) (fun _ => hR.raise h e) (hR.respond h false 0)

end Alike

/-- A relation that also shows the RS commands what they read, and that what they write keeps. -/
structure RsClosed (R : State → State → Prop) : Prop extends AnswerClosed R where
  params : ∀ {s₁ s₂}, R s₁ s₂ → s₁.params = s₂.params
  valid : ∀ {s₁ s₂}, R s₁ s₂ → s₁.rs.valid = s₂.rs.valid
  k : ∀ {s₁ s₂}, R s₁ s₂ → s₁.rs.k = s₂.rs.k
  output : ∀ {s₁ s₂}, R s₁ s₂ → ∀ i < s₁.rs.k, s₁.rs.output i = s₂.rs.output i
  start : ∀ {s₁ s₂}, R s₁ s₂ → ∀ l, R { s₁ with rs := RsUnit.start l } { s₂ with rs := RsUnit.start l }
  feed : ∀ {s₁ s₂}, R s₁ s₂ → ∀ d,
    R { s₁ with rs := s₁.rs.feed s₁.params d } { s₂ with rs := s₂.rs.feed s₂.params d }

theorem RsClosed.exec_alike {R : State → State → Prop} (hR : RsClosed R) {s₁ s₂ : State} (h : R s₁ s₂)
    {i : Instr} (hi : isRs i = true) : Alike R (exec i s₁) (exec i s₂) := by
  have valid : s₁.rs.valid = true ↔ s₂.rs.valid = true := by rw [hR.valid h]
  cases i with
  | rsInit l =>
    exact hR.unlessRefused h (.ite (by rw [hR.params h]) (fun _ => hR.respond (hR.start h l) _ _) (hR.raise h _))
  | rsFeed d =>
    refine hR.unlessRefused h (.ite valid (fun _ => ?_) (hR.raise h _))
    exact .ite Iff.rfl (fun _ => hR.respond (hR.feed h d) _ _) (hR.raise h _)
  | rsRdout i =>
    refine hR.unlessRefused h (.ite valid (fun _ => ?_) (hR.raise h _))
    refine .ite (by rw [outputIndexLegal, outputIndexLegal, hR.k h]) (fun legal => ?_) (hR.raise h _)
    rw [hR.output h i (of_decide_eq_true legal)]
    exact hR.respond h _ _
  | nop | srst | rdreg | txtPush | txtFlush | b900Push | b900Flush | b900Mode => cases hi

/-- Two states whose RS units differ in `RS_DCNT` at most. -/
structure SameButCount (s₁ s₂ : State) : Prop where
  err : s₁.err = s₂.err
  params : s₁.params = s₂.params
  valid : s₁.rs.valid = s₂.rs.valid
  level : s₁.rs.level = s₂.rs.level
  acc : s₁.rs.acc = s₂.rs.acc

/-- R18: nothing the RS commands read or write besides the counter depends on it. -/
theorem sameButCount_rsClosed : RsClosed SameButCount where
  err h := h.err
  answer h _ _ := ⟨h.err, h.params, h.valid, h.level, h.acc⟩
  withErr h _ := ⟨rfl, h.params, h.valid, h.level, h.acc⟩
  params h := h.params
  valid h := h.valid
  k h := by rw [RsUnit.k, RsUnit.k, h.level]
  output h i _ := by simp only [RsUnit.output, RsUnit.k, h.level, h.acc]
  start h _ := ⟨h.err, h.params, rfl, rfl, rfl⟩
  feed h _ := ⟨h.err, h.params, h.valid, h.level, by simp only [RsUnit.feed, h.params, h.level, h.acc]⟩

/-- Settles O37: `feeds_count` from the counter `RS_INIT` clears; and no RS command tells two
states apart that differ in the counter. -/
theorem feedCounterCountsModulo : Obligations.FeedCounterCountsModulo := by
  constructor
  · intro s l ds idle clear le present legal
    have started := execRsInit_of_legal s clear (l := l) (by simp [levelLegal, le, present])
    have hi : (Instr.rsInit l).WellFormed := decide_eq_true (show l < 2 ^ 4 by omega)
    obtain ⟨t, ht, count⟩ := feeds_count ds
      (s := takeResponse (State.answer { s with rs := RsUnit.start l } true (BitVec.ofNat 24 (Config.corrections l))))
      rfl clear rfl legal
    refine ⟨t, (runCommands_step _ idle hi started).trans ht, ?_⟩
    rw [count]
    show ((0#16) + BitVec.ofNat 16 ds.length).toNat = _
    rw [BitVec.zero_add, BitVec.toNat_ofNat]
  · intro i s dcnt hrs
    have same : SameButCount s { s with rs := { s.rs with dcnt := dcnt } } := ⟨rfl, rfl, rfl, rfl, rfl⟩
    obtain ⟨t, t', ht, ht', response, after⟩ := sameButCount_rsClosed.exec_alike same hrs
    exact ⟨t, t', ht, ht', after.acc.symm, after.valid.symm, after.level.symm, after.err.symm, response.symm⟩

/-! ### What the host observes (R30) -/

/-- `neg929` is a bijection on 0..928, so the read shows the entry. -/
theorem neg929_injective {x y : Codeword} (hx : x.toNat ≤ 928) (hy : y.toNat ≤ 928)
    (h : neg929 x = neg929 y) : x = y := by
  have number := congrArg BitVec.toNat h
  rw [neg929_toNat hx, neg929_toNat hy] at number
  refine BitVec.eq_of_toNat_eq ?_
  split at number <;> split at number <;> omega

/-- The read of position `K-1-j` shows entry `j`. -/
theorem entries_of_outputs {s₁ s₂ : State} (h₁ : Legal s₁) (h₂ : Legal s₂)
    (level : s₁.rs.level = s₂.rs.level) (outputs : ∀ i, i < s₁.rs.k → s₁.rs.output i = s₂.rs.output i) {j : Nat}
    (hj : j < s₁.rs.k) : entryAt s₁.rs.acc j = entryAt s₂.rs.acc j := by
  have k : s₂.rs.k = s₁.rs.k := by rw [RsUnit.k, RsUnit.k, level]
  have position : s₁.rs.k - 1 - (s₁.rs.k - 1 - j) = j := by omega
  have shown := outputs (s₁.rs.k - 1 - j) (by omega)
  rw [RsUnit.output, RsUnit.output, k, position] at shown
  exact neg929_injective (h₁.entries j) (h₂.entries j) shown

/-- Two states that agree but for the port, the bookkeeping and the entries of the accumulator beyond `K`. -/
structure SameVisible (s₁ s₂ : State) : Prop where
  err : s₁.err = s₂.err
  txt : s₁.txt = s₂.txt
  b900 : s₁.b900 = s₂.b900
  params : s₁.params = s₂.params
  valid : s₁.rs.valid = s₂.rs.valid
  level : s₁.rs.level = s₂.rs.level
  dcnt : s₁.rs.dcnt = s₂.rs.dcnt
  entries : ∀ j, j < s₁.rs.k → entryAt s₁.rs.acc j = entryAt s₂.rs.acc j

section SameVisible
variable {s₁ s₂ : State}

theorem SameVisible.k (h : SameVisible s₁ s₂) : s₁.rs.k = s₂.rs.k := by rw [RsUnit.k, RsUnit.k, h.level]

theorem SameVisible.regmap (h : SameVisible s₁ s₂) (idx : Nat) : regmap s₁ idx = regmap s₂ idx := by
  simp only [Machine.regmap, statusWord, h.err, h.txt, h.b900, h.valid, h.level, h.dcnt, h.k]

theorem corrections_pos (l : Nat) : 0 < Config.corrections l := by
  rw [Config.corrections, Nat.shiftLeft_eq]
  exact Nat.mul_pos (by decide) (Nat.two_pow_pos l)

/-- R84 reads `C[K-1]` and, for entry `j` below `K`, `C[j-1]`: nothing beyond `K`. -/
theorem rsStep_entry_congr {l : Nat} {acc₁ acc₂ : Vector Codeword 512}
    (h : ∀ j, j < Config.corrections l → entryAt acc₁ j = entryAt acc₂ j) (p : Params) (d : Nat) {j : Nat}
    (hj : j < Config.corrections l) : entryAt (rsStep p l d acc₁) j = entryAt (rsStep p l d acc₂) j := by
  have top := h (Config.corrections l - 1) (Nat.sub_lt (corrections_pos l) Nat.one_pos)
  have prev : prevEntry acc₁ j = prevEntry acc₂ j := by rw [prevEntry, prevEntry, h (j - 1) (by omega)]
  rw [rsStep_entry, rsStep_entry, top, prev, h j hj]

theorem sameVisible_rsClosed : RsClosed SameVisible where
  err h := h.err
  answer h _ _ := ⟨h.err, h.txt, h.b900, h.params, h.valid, h.level, h.dcnt, h.entries⟩
  withErr h _ := ⟨rfl, h.txt, h.b900, h.params, h.valid, h.level, h.dcnt, h.entries⟩
  params h := h.params
  valid h := h.valid
  k h := h.k
  output h i hi := by
    rw [RsUnit.output, RsUnit.output, ← h.k, h.entries _ (by omega)]
  start h _ := ⟨h.err, h.txt, h.b900, h.params, rfl, rfl, rfl, fun _ _ => rfl⟩
  feed h d := by
    refine ⟨h.err, h.txt, h.b900, h.params, h.valid, h.level, congrArg (· + 1) h.dcnt, fun j hj => ?_⟩
    simp only [RsUnit.feed, ← h.params, ← h.level]
    exact rsStep_entry_congr h.entries _ d hj

theorem SameVisible.withTxt (h : SameVisible s₁ s₂) (txt : Base30Unit) :
    SameVisible { s₁ with txt := txt } { s₂ with txt := txt } :=
  ⟨h.err, rfl, h.b900, h.params, h.valid, h.level, h.dcnt, h.entries⟩

theorem SameVisible.withB900 (h : SameVisible s₁ s₂) (b900 : Base900Unit) :
    SameVisible { s₁ with b900 := b900 } { s₂ with b900 := b900 } :=
  ⟨h.err, h.txt, rfl, h.params, h.valid, h.level, h.dcnt, h.entries⟩

theorem SameVisible.toResetState (h : SameVisible s₁ s₂) : SameVisible s₁.toResetState s₂.toResetState :=
  ⟨rfl, rfl, rfl, h.params, rfl, rfl, rfl, fun _ _ => rfl⟩

theorem SameVisible.completePair (h : SameVisible s₁ s₂) (lo : Nat) :
    Alike SameVisible (completePair lo s₁) (completePair lo s₂) := by
  rw [Machine.completePair, Machine.completePair, h.txt]
  exact sameVisible_rsClosed.respond (h.withTxt _) _ _

/-- R30: no command observes the entries beyond `K`. -/
theorem SameVisible.exec_alike (h : SameVisible s₁ s₂) (i : Instr) :
    Alike SameVisible (exec i s₁) (exec i s₂) := by
  have hR := sameVisible_rsClosed
  have pend : s₁.txt.pend = true ↔ s₂.txt.pend = true := by rw [h.txt]
  cases i with
  | nop => exact hR.respond h _ _
  | srst => exact hR.respond h.toResetState _ _
  | rdreg idx =>
    show Alike _ (execRdreg idx s₁) (execRdreg idx s₂)
    rw [execRdreg, execRdreg, h.regmap idx]
    split
    · exact hR.respond h _ _
    · exact hR.raiseIfClear h _
  | txtPush v =>
    refine hR.unlessRefused h (.ite Iff.rfl (fun _ => ?_) (hR.raise h _))
    exact .ite pend (fun _ => h.completePair v) (hR.respond (h.withTxt _) _ _)
  | txtFlush => exact hR.unlessRefused h (.ite pend (fun _ => h.completePair _) (hR.respond h _ _))
  | b900Push b =>
    refine hR.unlessRefused h ?_
    rw [h.b900]
    exact .ite Iff.rfl (fun _ => hR.respond (h.withB900 _) _ _) (hR.respond (h.withB900 _) _ _)
  | b900Flush =>
    refine hR.unlessRefused h ?_
    rw [h.b900]
    exact hR.respond (h.withB900 _) _ _
  | b900Mode len =>
    refine hR.unlessRefused h ?_
    rw [h.params]
    exact hR.respond h _ _
  | rsInit | rsFeed | rsRdout => exact hR.exec_alike h rfl

/-- `zext_24` loses nothing of a register it holds. -/
theorem zext24_injective {n : Nat} (hn : n ≤ 24) {x y : BitVec n} (h : zext24 x = zext24 y) : x = y := by
  have number := congrArg BitVec.toNat h
  simp only [zext24, BitVec.toNat_setWidth] at number
  have fits : 2 ^ n ≤ 2 ^ 24 := Nat.pow_le_pow_right (by decide) hn
  rw [Nat.mod_eq_of_lt (x.isLt.trans_le fits), Nat.mod_eq_of_lt (y.isLt.trans_le fits)] at number
  exact BitVec.eq_of_toNat_eq number

/-- R27: `B_ACC_LO` and `B_ACC_HI` together show `B_ACC`. -/
theorem acc_of_halves {x y : BitVec 48} (lo : x.extractLsb' 0 24 = y.extractLsb' 0 24)
    (hi : x.extractLsb' 24 24 = y.extractLsb' 24 24) : x = y := by
  have lo' := congrArg BitVec.toNat lo
  have hi' := congrArg BitVec.toNat hi
  rw [toNat_extractLsb', toNat_extractLsb'] at lo' hi'
  exact BitVec.eq_of_toNat_eq (by omega)

theorem status_determines (h : statusWord s₁ = statusWord s₂) :
    s₁.err = s₂.err ∧ s₁.rs.valid = s₂.rs.valid ∧ s₁.txt.pend = s₂.txt.pend ∧ s₁.b900.n = s₂.b900.n ∧
      s₁.b900.outN = s₂.b900.outN ∧ s₁.rs.level = s₂.rs.level := by
  obtain ⟨err₁, valid₁, pend₁, n₁, outN₁, level₁, -⟩ := statusFields s₁
  obtain ⟨err₂, valid₂, pend₂, n₂, outN₂, level₂, -⟩ := statusFields s₂
  rw [h] at err₁ valid₁ pend₁ n₁ outN₁ level₁
  exact ⟨err₁.symm.trans err₂, valid₁.symm.trans valid₂, pend₁.symm.trans pend₂, n₁.symm.trans n₂,
    outN₁.symm.trans outN₂, level₁.symm.trans level₂⟩

theorem vector_ext_entryAt {n : Nat} {xs ys : Vector Codeword n}
    (h : ∀ j < n, entryAt xs j = entryAt ys j) : xs = ys :=
  Vector.ext fun j hj => by rw [← entryAt_eq_getElem, ← entryAt_eq_getElem, h j hj]

/-- R27: the five result registers stand at 0x08 to 0x0C. -/
theorem regmap_out (s : State) {j : Nat} (hj : j < 5) :
    regmap s (0x08 + j) = some (zext24 (entryAt s.b900.out j)) := by
  interval_cases j <;> rfl

/-- R30: all architectural state but the accumulator is determined by what RDREG reads. -/
theorem regmap_determines (h : ∀ idx, regmap s₁ idx = regmap s₂ idx) :
    s₁.err = s₂.err ∧ s₁.rs.valid = s₂.rs.valid ∧ s₁.rs.level = s₂.rs.level ∧
      s₁.rs.dcnt = s₂.rs.dcnt ∧ s₁.txt = s₂.txt ∧ s₁.b900 = s₂.b900 := by
  obtain ⟨err, valid, pend, n, outN, level⟩ := status_determines (Option.some.inj (h 0x00))
  have dcnt : s₁.rs.dcnt = s₂.rs.dcnt := zext24_injective (by decide) (Option.some.inj (h 0x03))
  have hi : s₁.txt.hi = s₂.txt.hi := zext24_injective (by decide) (Option.some.inj (h 0x04))
  have acc : s₁.b900.acc = s₂.b900.acc :=
    acc_of_halves (Option.some.inj (h 0x05)) (Option.some.inj (h 0x06))
  have out : s₁.b900.out = s₂.b900.out := vector_ext_entryAt fun j hj => by
    have shown := h (0x08 + j)
    rw [regmap_out s₁ hj, regmap_out s₂ hj] at shown
    exact zext24_injective (by decide) (Option.some.inj shown)
  have txt : Base30Unit.mk s₁.txt.pend s₁.txt.hi = ⟨s₂.txt.pend, s₂.txt.hi⟩ := by rw [pend, hi]
  have b900 : Base900Unit.mk s₁.b900.n s₁.b900.acc s₁.b900.outN s₁.b900.out =
      ⟨s₂.b900.n, s₂.b900.acc, s₂.b900.outN, s₂.b900.out⟩ := by rw [n, acc, outN, out]
  exact ⟨err, valid, level, dcnt, txt, b900⟩

end SameVisible

/-- Settles O46: reads show the entries below `K` (`entries_of_outputs`), no command the others
(`SameVisible.exec_alike`), and RDREG the rest (`regmap_determines`). -/
theorem whatTheHostCanObserve : Obligations.WhatTheHostCanObserve := by
  refine ⟨fun s₁ s₂ h₁ h₂ level outputs j hj => entries_of_outputs h₁ h₂ level outputs hj, ?_,
    fun s₁ s₂ h => regmap_determines h⟩
  intro i s₁ s₂ err txt b900 params valid level dcnt entries
  obtain ⟨t₁, t₂, ht₁, ht₂, response, after⟩ :=
    SameVisible.exec_alike ⟨err, txt, b900, params, valid, level, dcnt, entries⟩ i
  exact ⟨t₁, t₂, ht₁, ht₂, response, after.err, after.txt, after.b900, after.valid, after.level, after.dcnt,
    after.entries⟩

end Sys2Proof.Machine

/-! Units and parameters (spec/20_memory.md): which registers a command touches and sees, that commands of different
units commute, that reads change nothing, and how the port holds a command until its response is taken. -/

namespace Sys2Proof.Machine

/-! ### The three units (R42) -/

/-- The units that have commands of their own. -/
inductive BlockUnit where
  | text
  | group
  | rs

/-- The type of a unit's registers. -/
def BlockUnit.Regs : BlockUnit → Type
  | .text => Base30Unit
  | .group => Base900Unit
  | .rs => RsUnit

/-- A unit's registers. -/
def BlockUnit.regs : (U : BlockUnit) → State → U.Regs
  | .text, s => s.txt
  | .group, s => s.b900
  | .rs, s => s.rs

/-- The unit a command belongs to (R47); the control commands belong to none. -/
def unitOf : Instr → Option BlockUnit
  | .nop | .srst | .rdreg _ => none
  | .txtPush _ | .txtFlush => some .text
  | .b900Push _ | .b900Flush | .b900Mode _ => some .group
  | .rsInit _ | .rsFeed _ | .rsRdout _ => some .rs

theorem unitOf_eq_text {i : Instr} (h : isText i = true) : unitOf i = some .text := by
  cases i with
  | txtPush | txtFlush => rfl
  | _ => cases h

theorem unitOf_eq_group {i : Instr} (h : isGroup i = true) : unitOf i = some .group := by
  cases i with
  | b900Push | b900Flush | b900Mode => rfl
  | _ => cases h

theorem unitOf_eq_rs {i : Instr} (h : isRs i = true) : unitOf i = some .rs := by
  cases i with
  | rsInit | rsFeed | rsRdout => rfl
  | _ => cases h

theorem ne_srst_of_unitOf {i : Instr} {U : BlockUnit} (h : unitOf i = some U) : i ≠ .srst := by
  rintro rfl
  cases h

/-- The record is `ERR` and the three units. -/
theorem arch_eq_of_regs {s t : State} (err : s.err = t.err) (units : ∀ U : BlockUnit, U.regs s = U.regs t) :
    s.arch = t.arch :=
  arch_ext err (units .rs) (units .text) (units .group)

/-! ### What a command leaves alone -/

/-- Only a unit's own commands write its registers. -/
theorem Effect.frame {s u : State} {i : Instr} (h : Effect s i u) {V : BlockUnit} (foreign : unitOf i ≠ some V) :
    V.regs u = V.regs s := by
  cases V with
  | text =>
    cases h with
    | held => exact absurd rfl foreign
    | paired _ text => exact absurd (unitOf_eq_text text) foreign
    | _ => rfl
  | group =>
    cases h with
    | accumulated | converted | flushed => exact absurd rfl foreign
    | _ => rfl
  | rs =>
    cases h with
    | started | fed => exact absurd rfl foreign
    | _ => rfl

/-- A command of one unit keeps the registers of the others. -/
theorem exec_frame {U V : BlockUnit} {i : Instr} (hi : unitOf i = some U) (hVU : V ≠ U) {s t : State}
    (h : exec i s = .next t) : V.regs t = V.regs s := by
  obtain ⟨u, valid, value, hu, effect⟩ := exec_effect (ne_srst_of_unitOf hi) s
  cases h.symm.trans hu
  have answered : V.regs (u.answer valid value) = V.regs u := by cases V <;> rfl
  rw [answered, effect.frame (by simpa [hi] using hVU.symm)]

/-- R123: where a command other than SRST leaves `ERR = 0`, no error was latched before it. -/
theorem exec_clear_before {s t : State} {i : Instr} (hi : i ≠ .srst) (h : exec i s = .next t)
    (clear : t.err = 0) : s.err = 0 := by
  have ends := exec_ends hi s
  rw [h] at ends
  cases ends with
  | answered => exact clear
  | raised _ before => exact before

theorem exec_total (i : Instr) (s : State) : ∃ t, exec i s = .next t := by
  by_cases hi : i = .srst
  · exact ⟨_, hi ▸ exec_srst s⟩
  · obtain ⟨u, valid, value, hu, -⟩ := exec_effect hi s
    exact ⟨_, hu⟩

/-! ### The parameters (R41, R138) -/

theorem exec_params {i : Instr} {s t : State} (h : exec i s = .next t) : t.params = s.params := by
  by_cases hi : i = .srst
  · rw [hi, exec_srst] at h
    cases h
    rfl
  · have ends := exec_ends hi s
    rw [h] at ends
    cases ends <;> rfl

theorem runWord_params {w : Word} {s t : State} (h : runWord w s = .next t) : t.params = s.params := by
  obtain ⟨-, -, -, -, -, params⟩ := runWord_keeps h
  exact params

theorem deliver_runWord_params {w : Word} {s t : State} (h : deliver (runWord w s) = .next t) :
    t.params = s.params := by
  obtain ⟨u, hu⟩ := runWord_total w s
  rw [hu, deliver_next] at h
  cases h
  rw [takeResponse_params, runWord_params hu]

theorem hostEvent_params {e : HostEvent} {s t : State} (h : hostEvent e s = .next t) : t.params = s.params := by
  cases e with
  | command w => exact deliver_runWord_params h
  | unstable w later =>
    obtain ⟨n, hn⟩ := afterChoice_eq s w later
    rw [hostEvent, hn] at h
    exact deliver_runWord_params (s := { s with freeCount := n }) h
  | withdrawn w => cases h; rfl
  | hardReset => cases h; rfl

theorem step_params {s t : State} (h : step s = .next t) : t.params = s.params := by
  unfold step transact at h
  split at h
  · cases h; rfl
  · split at h
    · exact deliver_runWord_params h
    · cases h; exact takeResponse_params s
    · split at h
      · cases h; rfl
      · next e rest _ => exact hostEvent_params (s := { s with line := rest }) h

theorem acceptCommand_params (p : Pins) (s : State) : (acceptCommand p s).params = s.params := by
  obtain ⟨n, hn⟩ := acceptCommand_eq p s
  rw [hn]

theorem clockEdge_params {p : Pins} {s t : State} (h : clockEdge p s = .next t) : t.params = s.params := by
  cases hr : p.rstN with
  | false =>
    rw [clockEdge_of_reset hr] at h
    cases h
    rfl
  | true =>
    cases hp : s.port.phase with
    | idle =>
      rw [clockEdge_of_idle hr hp] at h
      cases h
      split
      · exact acceptCommand_params p s
      · rfl
    | busy w left =>
      rw [clockEdge_of_busy hr hp] at h
      split at h
      · exact runWord_params (s := noteOffer p s) h
      · cases h; rfl
    | done r =>
      rw [clockEdge_of_done hr hp] at h
      cases h
      split
      · exact takeResponse_params s
      · rfl

/-- Settles O44: a command's end keeps the parameters (`exec_params`), and steps, edges and resets do nothing to
them but run commands. -/
theorem parametersNeverChange : Obligations.ParametersNeverChange :=
  ⟨fun _ _ _ => exec_params, fun _ _ => step_params, fun _ _ _ => clockEdge_params, hardReset_params⟩

/-! ### What a command of a unit sees -/

/-- The states agree in all that a command of `U` may read: `ERR`, the registers of `U` and, but for the base-30
unit, the parameters. -/
structure SameSeen (U : BlockUnit) (s₁ s₂ : State) : Prop where
  err : s₁.err = s₂.err
  regs : U.regs s₁ = U.regs s₂
  params : U ≠ .text → s₁.params = s₂.params

theorem sameSeen_answerClosed (U : BlockUnit) : AnswerClosed (SameSeen U) where
  err h := h.err
  answer h _ _ := ⟨h.err, by cases U <;> exact h.regs, h.params⟩
  withErr h _ := ⟨rfl, by cases U <;> exact h.regs, h.params⟩

theorem sameSeen_rsClosed : RsClosed (SameSeen .rs) where
  toAnswerClosed := sameSeen_answerClosed .rs
  params h := h.params nofun
  valid h := congrArg RsUnit.valid h.regs
  k h := congrArg RsUnit.k h.regs
  output h i _ := congrArg (RsUnit.output · i) h.regs
  start h _ := ⟨h.err, rfl, h.params⟩
  feed h d := ⟨h.err, congrArg₂ (RsUnit.feed · · d) h.regs (h.params nofun), h.params⟩

section SameSeen
variable {s₁ s₂ : State}

theorem SameSeen.withTxt (h : SameSeen .text s₁ s₂) (txt : Base30Unit) :
    SameSeen .text { s₁ with txt := txt } { s₂ with txt := txt } := ⟨h.err, rfl, h.params⟩

theorem SameSeen.withB900 (h : SameSeen .group s₁ s₂) (b900 : Base900Unit) :
    SameSeen .group { s₁ with b900 := b900 } { s₂ with b900 := b900 } := ⟨h.err, rfl, h.params⟩

theorem SameSeen.completePair (h : SameSeen .text s₁ s₂) (lo : Nat) :
    Alike (SameSeen .text) (completePair lo s₁) (completePair lo s₂) := by
  have txt : s₁.txt = s₂.txt := h.regs
  rw [Machine.completePair, Machine.completePair, txt]
  exact (sameSeen_answerClosed .text).respond (h.withTxt _) _ _

theorem SameSeen.exec_text (h : SameSeen .text s₁ s₂) {i : Instr} (hi : unitOf i = some .text) :
    Alike (SameSeen .text) (exec i s₁) (exec i s₂) := by
  have hR := sameSeen_answerClosed .text
  have pend : s₁.txt.pend = true ↔ s₂.txt.pend = true := by rw [show s₁.txt = s₂.txt from h.regs]
  cases i with
  | txtPush v =>
    refine hR.unlessRefused h (.ite Iff.rfl (fun _ => ?_) (hR.raise h _))
    exact .ite pend (fun _ => h.completePair v) (hR.respond (h.withTxt _) _ _)
  | txtFlush => exact hR.unlessRefused h (.ite pend (fun _ => h.completePair _) (hR.respond h _ _))
  | _ => cases hi

theorem SameSeen.exec_group (h : SameSeen .group s₁ s₂) {i : Instr} (hi : unitOf i = some .group) :
    Alike (SameSeen .group) (exec i s₁) (exec i s₂) := by
  have hR := sameSeen_answerClosed .group
  have b900 : s₁.b900 = s₂.b900 := h.regs
  cases i with
  | b900Push b =>
    refine hR.unlessRefused h ?_
    rw [b900]
    exact .ite Iff.rfl (fun _ => hR.respond (h.withB900 _) _ _) (hR.respond (h.withB900 _) _ _)
  | b900Flush =>
    refine hR.unlessRefused h ?_
    rw [b900]
    exact hR.respond (h.withB900 _) _ _
  | b900Mode len =>
    refine hR.unlessRefused h ?_
    rw [h.params nofun]
    exact hR.respond h _ _
  | _ => cases hi

/-- R42: the effect and the response of a unit's command depend on what the unit sees only. -/
theorem SameSeen.exec_alike {U : BlockUnit} (h : SameSeen U s₁ s₂) {i : Instr} (hi : unitOf i = some U) :
    Alike (SameSeen U) (exec i s₁) (exec i s₂) := by
  cases U with
  | text => exact h.exec_text hi
  | group => exact h.exec_group hi
  | rs =>
    cases i with
    | rsInit | rsFeed | rsRdout => exact sameSeen_rsClosed.exec_alike h rfl
    | _ => cases hi

theorem SameSeen.exec_next {U : BlockUnit} (h : SameSeen U s₁ s₂) {i : Instr} (hi : unitOf i = some U)
    {t₁ t₂ : State} (ht₁ : exec i s₁ = .next t₁) (ht₂ : exec i s₂ = .next t₂) :
    readyResponse t₁ = readyResponse t₂ ∧ SameSeen U t₁ t₂ := by
  obtain ⟨_, _, hu₁, hu₂, alike⟩ := h.exec_alike hi
  cases ht₁.symm.trans hu₁
  cases ht₂.symm.trans hu₂
  exact alike

end SameSeen

/-- What a command leaves in its unit, in `ERR` and at the port is determined by what it sees. -/
theorem exec_determined {U : BlockUnit} {i : Instr} (hi : unitOf i = some U) {s₁ s₂ : State}
    (h : SameSeen U s₁ s₂) :
    ∃ t₁ t₂, exec i s₁ = .next t₁ ∧ exec i s₂ = .next t₂ ∧ U.regs t₁ = U.regs t₂ ∧ t₁.err = t₂.err ∧
      readyResponse t₁ = readyResponse t₂ := by
  obtain ⟨t₁, t₂, ht₁, ht₂, response, after⟩ := h.exec_alike hi
  exact ⟨t₁, t₂, ht₁, ht₂, after.regs, after.err, response⟩

/-- Settles O42: the frames are `exec_frame`, and what a command reads is `exec_determined`. -/
theorem unitsShareOnlyErr : Obligations.UnitsShareOnlyErr := by
  refine ⟨fun i s t hi h => ?_, fun i s t hi h => ?_, fun i s t hi h => ?_, fun i s₁ s₂ hi err txt => ?_,
    fun i s₁ s₂ hi err b900 params => ?_, fun i s₁ s₂ hi err rs params => ?_⟩
  · exact ⟨exec_frame (V := .rs) (unitOf_eq_text hi) nofun h, exec_frame (V := .group) (unitOf_eq_text hi) nofun h⟩
  · exact ⟨exec_frame (V := .rs) (unitOf_eq_group hi) nofun h, exec_frame (V := .text) (unitOf_eq_group hi) nofun h⟩
  · exact ⟨exec_frame (V := .text) (unitOf_eq_rs hi) nofun h, exec_frame (V := .group) (unitOf_eq_rs hi) nofun h⟩
  · exact exec_determined (U := .text) (unitOf_eq_text hi) ⟨err, txt, absurd rfl⟩
  · exact exec_determined (U := .group) (unitOf_eq_group hi) ⟨err, b900, fun _ => params⟩
  · exact exec_determined (U := .rs) (unitOf_eq_rs hi) ⟨err, rs, fun _ => params⟩

/-! ### Commands of different units commute (R38) -/

/-- A command of one unit that leaves `ERR = 0` shows another unit nothing. -/
theorem sameSeen_of_foreign {U V : BlockUnit} {i : Instr} (hi : unitOf i = some U) (hVU : V ≠ U) {s t : State}
    (h : exec i s = .next t) (before : s.err = 0) (after : t.err = 0) : SameSeen V t s :=
  ⟨after.trans before.symm, exec_frame hi hVU h, fun _ => exec_params h⟩

/-- Either command finds what it sees as it would find it without the other. -/
theorem exec_comm {U V : BlockUnit} (hUV : U ≠ V) {i j : Instr} (hi : unitOf i = some U) (hj : unitOf j = some V)
    (s : State) :
    ∃ t₁ t₂ u₁ u₂, exec i s = .next t₁ ∧ exec j t₁ = .next t₂ ∧ exec j s = .next u₁ ∧ exec i u₁ = .next u₂ ∧
      (t₂.err = 0 → t₂.arch = u₂.arch ∧ readyResponse t₁ = readyResponse u₂ ∧
        readyResponse t₂ = readyResponse u₁) := by
  obtain ⟨t₁, ht₁⟩ := exec_total i s
  obtain ⟨t₂, ht₂⟩ := exec_total j t₁
  obtain ⟨u₁, hu₁⟩ := exec_total j s
  obtain ⟨u₂, hu₂⟩ := exec_total i u₁
  refine ⟨t₁, t₂, u₁, u₂, ht₁, ht₂, hu₁, hu₂, fun clear₂ => ?_⟩
  have clear₁ : t₁.err = 0 := exec_clear_before (ne_srst_of_unitOf hj) ht₂ clear₂
  have clear : s.err = 0 := exec_clear_before (ne_srst_of_unitOf hi) ht₁ clear₁
  obtain ⟨response_j, same_j⟩ := (sameSeen_of_foreign hi hUV.symm ht₁ clear clear₁).exec_next hj ht₂ hu₁
  have clear_j : u₁.err = 0 := same_j.err.symm.trans clear₂
  obtain ⟨response_i, same_i⟩ := (sameSeen_of_foreign hj hUV hu₁ clear clear_j).exec_next hi hu₂ ht₁
  refine ⟨arch_eq_of_regs (clear₂.trans (same_i.err.trans clear₁).symm) fun W => ?_, response_i.symm, response_j⟩
  by_cases hWU : W = U
  · subst hWU
    exact (exec_frame hj hUV ht₂).trans same_i.regs.symm
  · rw [exec_frame hi hWU hu₂]
    by_cases hWV : W = V
    · subst hWV
      exact same_j.regs
    · rw [exec_frame hj hWV ht₂, exec_frame hi hWU ht₁, exec_frame hj hWV hu₁]

/-- Settles O43: `exec_comm` for each pair of units. -/
theorem commandsOfDifferentUnitsCommute : Obligations.CommandsOfDifferentUnitsCommute := by
  rintro i j s (⟨hi, hj⟩ | ⟨hi, hj⟩ | ⟨hi, hj⟩)
  · exact exec_comm (U := .text) (V := .group) nofun (unitOf_eq_text hi) (unitOf_eq_group hj) s
  · exact exec_comm (U := .text) (V := .rs) nofun (unitOf_eq_text hi) (unitOf_eq_rs hj) s
  · exact exec_comm (U := .group) (V := .rs) nofun (unitOf_eq_group hi) (unitOf_eq_rs hj) s

/-! ### Reads (R37) -/

/-- The commands of R37. -/
def IsRead (i : Instr) : Prop :=
  i = .nop ∨ (∃ idx, i = .rdreg idx) ∨ (∃ n, i = .rsRdout n) ∨ (∃ len, i = .b900Mode len)

theorem IsRead.not_text {i : Instr} (h : IsRead i) : isText i = false := by
  obtain rfl | ⟨_, rfl⟩ | ⟨_, rfl⟩ | ⟨_, rfl⟩ := h <;> rfl

/-- A read keeps the state or raises an error, before it answers. -/
theorem Effect.of_read {s u : State} {i : Instr} (h : Effect s i u) (read : IsRead i) :
    u = s ∨ (s.err = 0 ∧ ∃ e : ErrorCode, u = { s with err := e.code }) := by
  cases h with
  | kept => exact .inl rfl
  | raised _ e clear => exact .inr ⟨clear, e, rfl⟩
  | paired _ text => exact absurd text (by simp [read.not_text])
  | held | accumulated | converted | flushed | started | fed => simp [IsRead] at read

/-- A command that has changed no register answers the same again. -/
theorem exec_again {i : Instr} {s : State} {valid : Bool} {value : Value}
    (h : exec i s = .next (s.answer valid value)) :
    ∃ u, exec i (s.answer valid value) = .next u ∧ u.arch = s.arch ∧
      readyResponse u = readyResponse (s.answer valid value) :=
  ⟨_, exec_book s (s.answer valid value).port (s.index + 1) s.observed s.line s.freeCount h, rfl, rfl⟩

/-- Settles O45: a read keeps the state or raises (`Effect.of_read`), and where it keeps it, `exec_again`. -/
theorem readsHaveNoSideEffects : Obligations.ReadsHaveNoSideEffects := by
  intro i s read
  have hi : i ≠ .srst := by rintro rfl; simp at read
  obtain ⟨u, valid, value, hu, effect⟩ := exec_effect hi s
  refine ⟨_, hu, ?_⟩
  obtain rfl | ⟨clear, e, rfl⟩ := effect.of_read read
  · exact ⟨rfl, rfl, rfl, .inl rfl, fun _ => exec_again hu⟩
  · exact ⟨rfl, rfl, rfl, .inr ⟨clear, code_ne_zero e⟩,
      fun same => absurd (same.trans clear) (code_ne_zero e)⟩

/-! ### The port holds one command (R33, R142) -/

/-- While edges remain beyond those that pass, the command in flight has no effect but on their count. -/
theorem clockEdges_waiting {w : Word} {ps : List Pins} (hps : ∀ p ∈ ps, p.rstN = true) {left : Nat}
    (short : ps.length < left) (s : State) (offered : List Word) :
    ∃ offered', clockEdges ps { s with port := ⟨.busy w left, offered⟩ } =
      .next { s with port := ⟨.busy w (left - ps.length), offered'⟩ } := by
  induction ps generalizing left offered with
  | nil => exact ⟨offered, rfl⟩
  | cons p ps ih =>
    obtain ⟨hp, hps⟩ := List.forall_mem_cons.mp hps
    rw [List.length_cons] at short
    have hedge := clockEdge_of_busy (p := p) (s := { s with port := ⟨.busy w left, offered⟩ }) hp rfl
    rw [if_neg (by omega)] at hedge
    obtain ⟨offered', hrest⟩ := ih hps (left := left - 1) (by omega) _
    rw [Nat.sub_sub, Nat.add_comm] at hrest
    exact ⟨offered', (clockEdges_cons hedge ps).trans hrest⟩

/-- A response that is ready stays until the host takes it. -/
theorem clockEdges_untaken {r : Word} {qs : List Pins} (hqs : ∀ q ∈ qs, q.rstN = true ∧ q.rspReady = false)
    (s : State) (offered : List Word) :
    ∃ offered', clockEdges qs { s with port := ⟨.done r, offered⟩ } =
      .next { s with port := ⟨.done r, offered'⟩ } := by
  induction qs generalizing offered with
  | nil => exact ⟨offered, rfl⟩
  | cons q qs ih =>
    obtain ⟨⟨hq, untaken⟩, hqs⟩ := List.forall_mem_cons.mp hqs
    have hedge := clockEdge_of_done (p := q) (s := { s with port := ⟨.done r, offered⟩ }) hq rfl
    rw [if_neg (by simp [untaken])] at hedge
    obtain ⟨offered', hrest⟩ := ih hqs _
    exact ⟨offered', (clockEdges_cons hedge qs).trans hrest⟩

theorem port_outputs_of_busy {s : State} {w : Word} {left : Nat} (busy : s.port.phase = .busy w left) (q : Pins) :
    cmdReady q s = false ∧ rspValid q s = false := by
  simp [cmdReady, rspValid, busy]

theorem port_outputs_of_done {s : State} {r : Word} (done : s.port.phase = .done r) {q : Pins}
    (hq : q.rstN = true) : cmdReady q s = false ∧ rspValid q s = true := by
  simp [cmdReady, rspValid, done, hq]

/-- Settles O50: the edge accepts the word (`clockEdge_accepts`); fewer edges than the latency wait
(`clockEdges_waiting`), as many run it (`clockEdges_complete`), and its response stays (`clockEdges_untaken`) until
an edge takes it (`clockEdge_takes`). -/
theorem portHoldsOneCommandUntilTaken : Obligations.PortHoldsOneCommandUntilTaken := by
  intro s p ps idle none hp hv hps
  have hport : s.port = Port.reset := by rw [Port.reset, ← idle, ← none]
  have haccept := clockEdge_accepts hp hv hport
  refine ⟨by simp [cmdReady, hp, idle], fun short => ?_, fun hlen => ?_⟩
  · obtain ⟨offered, hwait⟩ := clockEdges_waiting (w := p.cmdData) hps short s []
    exact ⟨_, (clockEdges_cons haccept ps).trans hwait, rfl, rfl, port_outputs_of_busy rfl⟩
  · obtain ⟨u, hw⟩ := runWord_total p.cmdData s
    obtain ⟨⟨r, hu⟩, -, observed, -⟩ := runWord_keeps hw
    have hne : ps ≠ [] := List.ne_nil_of_length_pos (hlen ▸ latency_pos _ _ _)
    obtain ⟨offered, hrun⟩ := clockEdges_complete hw hps hne []
    rw [hlen] at hrun
    simp only [hu] at hrun
    refine ⟨_, u, r, (clockEdges_cons haccept ps).trans hrun, hw, rfl, observed, by simp only [readyResponse, hu],
      rfl, fun qs hqs => ?_⟩
    obtain ⟨offered', hstay⟩ := clockEdges_untaken hqs u offered
    exact ⟨_, hstay, rfl, rfl, rfl, fun _ => port_outputs_of_done rfl,
      fun _ hq taken => ⟨_, clockEdge_takes hq taken rfl, rfl, rfl, rfl⟩⟩

end Sys2Proof.Machine

/-! The encoding (spec/30_encoding.md): a word decodes to a command exactly where it is that command's word, a word
has at most one row of R49 and is illegal where it has none, the fields of a response (R52), and the assembler
(R54, R55). -/

namespace Sys2Proof

/-! ### A command's words -/

theorem decode_command_iff {w : Word} {i : Instr} : decode w = .command i ↔ i.HasNumber w.toNat :=
  ⟨hasNumber_of_decode, decode_of_hasNumber⟩

/-- The row's number and the operand below it make up the whole word. -/
theorem encode_of_hasNumber {w : Word} {i : Instr} (h : i.HasNumber w.toNat) : encode i = w := by
  refine BitVec.eq_of_toNat_eq ?_
  rw [encode_toNat]
  cases i with
  | nop | srst | txtFlush | b900Flush => exact h.symm
  | rdreg | txtPush | b900Push | b900Mode | rsInit | rsFeed | rsRdout =>
    obtain ⟨row, rfl⟩ := h
    simp only
    omega

theorem encode_of_decode {w : Word} {i : Instr} (h : decode w = .command i) : encode i = w :=
  encode_of_hasNumber (hasNumber_of_decode h)

/-! ### The rows of R49 -/

theorem hits_iff {r : EncRow} {w : Word} : r.hits w = true ↔ w &&& r.mask = r.pattern := beq_iff_eq

/-- A row without an operand. -/
theorem decode_iff_masked (r : EncRow) {w : Word} {i : Instr} (row : r.hits w = true ↔ i.HasNumber w.toNat) :
    decode w = .command i ↔ w &&& r.mask = r.pattern := by
  rw [decode_command_iff, ← row, hits_iff]

/-- A row with an operand in its low `n` bits (R56). -/
theorem decode_iff_masked_field (r : EncRow) {w : Word} {i : Instr} {n c v : Nat}
    (row : r.hits w = true ↔ w.toNat / 2 ^ n = c)
    (command : i.HasNumber w.toNat ↔ w.toNat / 2 ^ n = c ∧ v = w.toNat % 2 ^ n) :
    decode w = .command i ↔ w &&& r.mask = r.pattern ∧ v = (w.extractLsb' 0 n).toNat := by
  rw [decode_command_iff, command, ← row, hits_iff, ← operandField_eq, operandField]

theorem mask_covers_opcode : ∀ r ∈ encTable, r.mask.extractLsb' 24 8 = 0xFF#8 := by decide

theorem pattern_operand_zero : ∀ r ∈ encTable, r.pattern &&& 0x00FFFFFF#32 = 0 := by decide

theorem rowOpcodes_nodup : (encTable.map fun r => opcodeOf r.pattern).Nodup := by decide

theorem opcodeOf_and_mask {r : EncRow} (hr : r ∈ encTable) (w : Word) : opcodeOf (w &&& r.mask) = opcodeOf w := by
  rw [opcodeOf, BitVec.extractLsb'_and, mask_covers_opcode r hr]
  exact BitVec.and_allOnes

/-- A word that matches a row has the row's opcode. -/
theorem opcodeOf_of_match {r : EncRow} (hr : r ∈ encTable) {w : Word} (h : w &&& r.mask = r.pattern) :
    opcodeOf r.pattern = opcodeOf w := by
  rw [← h, opcodeOf_and_mask hr]

/-- R47: the opcode determines the row. -/
theorem row_eq_of_opcode {a b : EncRow} (ha : a ∈ encTable) (hb : b ∈ encTable)
    (h : opcodeOf a.pattern = opcodeOf b.pattern) : a = b :=
  List.inj_on_of_nodup_map rowOpcodes_nodup ha hb h

/-- R49: at most one row matches a word. -/
theorem row_unique {a b : EncRow} (ha : a ∈ encTable) (hb : b ∈ encTable) {w : Word}
    (hwa : w &&& a.mask = a.pattern) (hwb : w &&& b.mask = b.pattern) : a = b :=
  row_eq_of_opcode ha hb ((opcodeOf_of_match ha hwa).trans (opcodeOf_of_match hb hwb).symm)

/-- The low 24 bits as a remainder. -/
theorem and_lowMask_toNat (w : Word) : (w &&& 0x00FFFFFF#32).toNat = w.toNat % 2 ^ 24 :=
  Nat.and_two_pow_sub_one_eq_mod w.toNat 24

/-- R46: a word is its opcode and its low 24 bits. -/
theorem word_ext {x y : Word} (opcode : opcodeOf x = opcodeOf y)
    (operand : x &&& 0x00FFFFFF#32 = y &&& 0x00FFFFFF#32) : x = y := by
  have high := congrArg BitVec.toNat opcode
  have low := congrArg BitVec.toNat operand
  rw [opcodeOf_toNat, opcodeOf_toNat] at high
  rw [and_lowMask_toNat, and_lowMask_toNat] at low
  exact BitVec.eq_of_toNat_eq (by omega)

/-- R49, R50: a word matches a row where it has the row's opcode and none of the row's reserved bits. -/
theorem match_iff {r : EncRow} (hr : r ∈ encTable) (w : Word) :
    w &&& r.mask = r.pattern ↔ opcodeOf r.pattern = opcodeOf w ∧ w &&& r.mask &&& 0x00FFFFFF#32 = 0 := by
  constructor
  · intro h
    exact ⟨opcodeOf_of_match hr h, by rw [h, pattern_operand_zero r hr]⟩
  · rintro ⟨opcode, reserved⟩
    exact word_ext (by rw [opcodeOf_and_mask hr, opcode]) (by rw [reserved, pattern_operand_zero r hr])

/-! ### Illegal words -/

theorem row_mem (i : Instr) : i.row ∈ encTable := by
  cases i <;> simp [Instr.row, encTable]

/-- A command's word matches the command's row. -/
theorem row_hits_encode (i : Instr) : i.row.hits (encode i) = true := by
  cases i with
  | nop => exact Laws.EncodedRow.nop
  | srst => exact Laws.EncodedRow.srst
  | rdreg idx => exact Laws.EncodedRow.rdreg idx
  | txtPush v => exact Laws.EncodedRow.txtPush v
  | txtFlush => exact Laws.EncodedRow.txtFlush
  | b900Push b => exact Laws.EncodedRow.b900Push b
  | b900Flush => exact Laws.EncodedRow.b900Flush
  | b900Mode len => exact Laws.EncodedRow.b900Mode len
  | rsInit lvl => exact Laws.EncodedRow.rsInit lvl
  | rsFeed d => exact Laws.EncodedRow.rsFeed d
  | rsRdout i => exact Laws.EncodedRow.rsRdout i

theorem row_hits_of_decode {w : Word} {i : Instr} (h : decode w = .command i) : i.row.hits w = true :=
  encode_of_decode h ▸ row_hits_encode i

/-- A word that matches a row decodes to a command. -/
theorem decode_of_hits {w : Word} {r : EncRow} (hr : r ∈ encTable) (h : r.hits w = true) :
    ∃ i, decode w = .command i := by
  simp only [encTable, List.mem_cons, List.not_mem_nil, or_false] at hr
  obtain rfl | rfl | rfl | rfl | rfl | rfl | rfl | rfl | rfl | rfl | rfl := hr
  · exact ⟨.nop, decode_of_hasNumber ((rowNop_hits w).mp h)⟩
  · exact ⟨.srst, decode_of_hasNumber ((rowSrst_hits w).mp h)⟩
  · exact ⟨.rdreg _, decode_of_hasNumber ⟨(rowRdreg_hits w).mp h, rfl⟩⟩
  · exact ⟨.txtPush _, decode_of_hasNumber ⟨(rowTxtPush_hits w).mp h, rfl⟩⟩
  · exact ⟨.txtFlush, decode_of_hasNumber ((rowTxtFlush_hits w).mp h)⟩
  · exact ⟨.b900Push _, decode_of_hasNumber ⟨(rowB900Push_hits w).mp h, rfl⟩⟩
  · exact ⟨.b900Flush, decode_of_hasNumber ((rowB900Flush_hits w).mp h)⟩
  · exact ⟨.b900Mode _, decode_of_hasNumber ⟨(rowB900Mode_hits w).mp h, rfl⟩⟩
  · exact ⟨.rsInit _, decode_of_hasNumber ⟨(rowRsInit_hits w).mp h, rfl⟩⟩
  · exact ⟨.rsFeed _, decode_of_hasNumber ⟨(rowRsFeed_hits w).mp h, rfl⟩⟩
  · exact ⟨.rsRdout _, decode_of_hasNumber ⟨(rowRsRdout_hits w).mp h, rfl⟩⟩

/-- R49: a word is illegal where no row matches it. -/
theorem illegal_iff_no_match (w : Word) :
    (∃ why, decode w = .illegal why) ↔ ∀ r ∈ encTable, w &&& r.mask ≠ r.pattern := by
  constructor
  · rintro ⟨why, illegal⟩ r hr hmatch
    obtain ⟨i, command⟩ := decode_of_hits hr (hits_iff.mpr hmatch)
    cases illegal.symm.trans command
  · intro unmatched
    cases hd : decode w with
    | command i => exact absurd (hits_iff.mp (row_hits_of_decode hd)) (unmatched i.row (row_mem i))
    | illegal why => exact ⟨why, rfl⟩

/-- R50: the two reasons. The second needs that no other row has the opcode. -/
theorem illegal_iff_unassigned_or_reserved (w : Word) :
    (∃ why, decode w = .illegal why) ↔
      (∀ r ∈ encTable, opcodeOf r.pattern ≠ opcodeOf w) ∨
      (∃ r ∈ encTable, opcodeOf r.pattern = opcodeOf w ∧ w &&& r.mask &&& 0x00FFFFFF#32 ≠ 0) := by
  rw [illegal_iff_no_match]
  constructor
  · intro unmatched
    by_cases assigned : ∃ r ∈ encTable, opcodeOf r.pattern = opcodeOf w
    · obtain ⟨r, hr, opcode⟩ := assigned
      exact .inr ⟨r, hr, opcode, fun clear => unmatched r hr ((match_iff hr w).mpr ⟨opcode, clear⟩)⟩
    · exact .inl fun r hr opcode => assigned ⟨r, hr, opcode⟩
  · rintro (unassigned | ⟨r, hr, opcode, reserved⟩) q hq hmatch
    · exact unassigned q hq (opcodeOf_of_match hq hmatch)
    · obtain ⟨opcode', clear⟩ := (match_iff hq w).mp hmatch
      cases row_eq_of_opcode hr hq (opcode.trans opcode'.symm)
      exact reserved clear

end Sys2Proof

namespace Sys2Proof.Machine

/-! ### Responses and the assembler -/

theorem responseErrf_responseWord (err : BitVec 4) (valid : Bool) (value : Value) :
    responseErrf (responseWord err valid value) = errFlag err := by
  refine getLsbD_eq_of_place 31 ?_
  have := valid.toNat_lt
  have := (errFlag err).toNat_lt
  rw [responseWord_toNat]
  omega

theorem errFlag_eq_decide (err : BitVec 4) : errFlag err = decide (err ≠ 0) := by
  simp [errFlag, bne, beq_eq_decide]

/-- R52: the reserved bits of a response. -/
theorem responseWord_reserved (err : BitVec 4) (valid : Bool) (value : Value) :
    (responseWord err valid value).extractLsb' 28 2 = 0 := by
  refine extractLsb'_eq_of_place (v := 0#2) 28 ?_
  rw [responseWord_toNat, BitVec.toNat_ofNat]
  omega

/-- R52: the `ERR` field of a response. -/
theorem responseWord_err (err : BitVec 4) (valid : Bool) (value : Value) :
    (responseWord err valid value).extractLsb' 24 4 = err := by
  refine extractLsb'_eq_of_place 24 ?_
  rw [responseWord_toNat]
  omega

/-- R54: an operand that does not fit has no word. -/
theorem assemble_of_not_wellFormed {i : Instr} (hi : ¬ i.WellFormed) : assemble i = none := if_neg hi

theorem assemble_of_wellFormed {i : Instr} (hi : i.WellFormed) : assemble i = some (encode i) := if_pos hi

/-- R55: `B900_READ n` reads the result registers from the first on. -/
theorem pseudoExpand_b900Read {n : Nat} (pos : 1 ≤ n) (le : n ≤ 5) :
    pseudoExpand (.b900Read n) = some ((List.range n).map fun j => .rdreg (0x08 + j)) := if_pos ⟨pos, le⟩

/-- R55: `RS_READALL l` reads the level's correction codewords from the first on. -/
theorem pseudoExpand_rsReadall {l : Nat} (le : l ≤ 8) :
    pseudoExpand (.rsReadall l) = some ((List.range (Config.corrections l)).map Instr.rsRdout) := if_pos le

/-- Entry `j` of a numbered list of commands. -/
theorem getElem?_map_range (f : Nat → Instr) {n j : Nat} (hj : j < n) :
    ((List.range n).map f)[j]? = some (f j) := by
  rw [List.getElem?_map, List.getElem?_range hj, Option.map_some]

/-! ### The statements -/

/-- Settles O1: the number of the word (`encode_toNat`) is one of the command's numbers (`decode_encode`). -/
theorem decodeOfEncodeIsIdentity : Obligations.DecodeOfEncodeIsIdentity :=
  fun _ hi => decode_encode hi

/-- Settles O2: the word's number is the row's number above the operand (`hasNumber_of_decode`), which is the number
of the command's word. -/
theorem encodeOfDecodeIsIdentity : Obligations.EncodeOfDecodeIsIdentity :=
  fun _ _ h => ⟨wellFormed_of_decode h, encode_of_decode h⟩

/-- Settles O3: each row's test is a test of the word's number (`decode_iff_masked`, `decode_iff_masked_field`), the
opcodes keep the rows apart (`row_unique`), and what no row matches is illegal (`illegal_iff_no_match`). -/
theorem decodeFollowsMaskAndMatch : Obligations.DecodeFollowsMaskAndMatch := by
  refine ⟨fun w => decode_iff_masked rowNop (rowNop_hits w), fun w => decode_iff_masked rowSrst (rowSrst_hits w),
    fun w _ => decode_iff_masked_field rowRdreg (rowRdreg_hits w) .rfl,
    fun w _ => decode_iff_masked_field rowTxtPush (rowTxtPush_hits w) .rfl,
    fun w => decode_iff_masked rowTxtFlush (rowTxtFlush_hits w),
    fun w _ => decode_iff_masked_field rowB900Push (rowB900Push_hits w) .rfl,
    fun w => decode_iff_masked rowB900Flush (rowB900Flush_hits w),
    fun w _ => decode_iff_masked_field rowB900Mode (rowB900Mode_hits w) .rfl,
    fun w _ => decode_iff_masked_field rowRsInit (rowRsInit_hits w) .rfl,
    fun w _ => decode_iff_masked_field rowRsFeed (rowRsFeed_hits w) .rfl,
    fun w _ => decode_iff_masked_field rowRsRdout (rowRsRdout_hits w) .rfl,
    mask_covers_opcode, by decide, ?_, illegal_iff_no_match⟩
  refine rowOpcodes_nodup.of_map.pairwise_of_forall_ne fun a ha b hb hne w => ?_
  rintro ⟨hwa, hwb⟩
  exact hne (row_unique ha hb hwa hwb)

/-- Settles O5: which words are illegal is `illegal_iff_unassigned_or_reserved`; what one does is `raiseIfClear`. -/
theorem illegalWordRaisesOnlyWhileClear : Obligations.IllegalWordRaisesOnlyWhileClear := by
  refine ⟨illegal_iff_unassigned_or_reserved, fun w why s illegal => ?_⟩
  rw [runWord_illegal illegal, execIllegal]
  exact ⟨fun clear => raiseIfClear_of_clear clear _, fun latched => raiseIfClear_of_latched latched _⟩

/-- Settles O7: the fields are digits of the response's number (`responseWord_toNat`), and every word ends in an
answer (`runWord_answers`), which the host then takes. -/
theorem responseWordFields : Obligations.ResponseWordFields := by
  constructor
  · intro err valid value
    exact ⟨(responseErrf_responseWord err valid value).trans (errFlag_eq_decide err),
      responseValid_responseWord err valid value, responseWord_reserved err valid value,
      responseWord_err err valid value, responseValue_responseWord err valid value⟩
  · intro w s
    obtain ⟨err, rs, txt, b900, valid, value, hw⟩ := runWord_answers w s
    refine ⟨_, valid, value, hw, answer_ready _ valid value, ?_⟩
    rw [deliver_next, takeResponse_of_done (answer_phase _ valid value), answer_err]

/-- Settles O57: a word exists exactly where the operand fits (`assemble_of_wellFormed`), and it decodes to the
command (`decode_encode`); the examples are computed. -/
theorem assemblerAcceptsWhatFits : Obligations.AssemblerAcceptsWhatFits := by
  refine ⟨fun _ => assemble_of_not_wellFormed,
    fun _ hi => ⟨_, assemble_of_wellFormed hi, decode_encode hi⟩, ?_⟩
  decide

/-- Settles O4, by computing the decoder on the seven words. -/
theorem specWordsDecodeAsWritten : Obligations.SpecWordsDecodeAsWritten := by
  unfold Obligations.SpecWordsDecodeAsWritten
  decide

/-- Settles O6: the first part is the definition, the second is `answer_ready`. -/
theorem answerSetsResponseAndIndexOnly : Obligations.AnswerSetsResponseAndIndexOnly :=
  fun s valid value => ⟨rfl, answer_ready s valid value⟩

/-- Settles O56: the fixed expansions are rows of the definition; the other two are numbered lists. -/
theorem pseudoInstructionExpansions : Obligations.PseudoInstructionExpansions := by
  refine ⟨rfl, fun _ _ => rfl, fun _ _ _ _ _ _ => rfl, fun n pos le => ?_, fun l le => ?_⟩
  · exact ⟨_, pseudoExpand_b900Read pos le, by rw [List.length_map, List.length_range],
      fun j hj => getElem?_map_range _ hj⟩
  · exact ⟨_, pseudoExpand_rsReadall le, by rw [List.length_map, List.length_range, Config.corrections],
      fun j hj => getElem?_map_range _ hj⟩

end Sys2Proof.Machine

/-! The control commands (spec/40_control.md): which words with a control opcode are illegal, the reset state SRST
leaves, and the unmapped indices of RDREG. -/

namespace Sys2Proof

/-! ### Words with a reserved bit -/

theorem rowOpcode_assigned : ∀ r ∈ encTable, opcodeOf r.pattern ∈ assignedOpcodes := by decide

/-- R50: a word that matches no row has a reserved bit where its opcode is assigned. -/
theorem decode_of_no_match {w : Word} (unmatched : ∀ r ∈ encTable, w &&& r.mask ≠ r.pattern)
    (assigned : opcodeOf w ∈ assignedOpcodes) : decode w = .illegal .reservedBitSet := by
  have miss : ∀ r ∈ encTable, ¬ r.hits w = true := fun r hr hits => unmatched r hr (hits_iff.mp hits)
  simp only [encTable, List.forall_mem_cons] at miss
  simp [decode, miss, assigned]

/-- R50: the opcode's row is the only one that could match. -/
theorem decode_of_row_unmatched {r : EncRow} (hr : r ∈ encTable) {w : Word}
    (opcode : opcodeOf w = opcodeOf r.pattern) (unmatched : w &&& r.mask ≠ r.pattern) :
    decode w = .illegal .reservedBitSet := by
  refine decode_of_no_match (fun q hq hmatch => unmatched ?_) (opcode ▸ rowOpcode_assigned r hr)
  cases row_eq_of_opcode hq hr ((opcodeOf_of_match hq hmatch).trans opcode)
  exact hmatch

/-- R48: the word of a command without an operand is the only legal one with its opcode. -/
theorem decode_of_ne_pattern {r : EncRow} (hr : r ∈ encTable) (full : r.mask = BitVec.allOnes 32) {w : Word}
    (opcode : opcodeOf w = opcodeOf r.pattern) (other : w ≠ r.pattern) : decode w = .illegal .reservedBitSet :=
  decode_of_row_unmatched hr opcode (by rwa [full, BitVec.and_allOnes])

end Sys2Proof

namespace Sys2Proof.Machine

/-! ### STATUS after a reset, and the unmapped indices -/

/-- R137, R28: STATUS reads 0 after a reset. -/
theorem statusWord_toResetState (s : State) : statusWord s.toResetState = 0 := by
  simp only [statusWord, toResetState_err, toResetState_rs, toResetState_txt, toResetState_b900]
  decide

/-- R52: what a command answers that ends without an error and without a value. -/
theorem responseWord_clear : responseWord 0 false 0 = 0x00000000#32 := by decide

theorem regmap_answer (s : State) (valid : Bool) (value : Value) (idx : Nat) :
    regmap (s.answer valid value) idx = regmap s idx := rfl

/-- R27: the indices without a register. -/
theorem regmap_unmapped (s : State) {idx : Nat} (unmapped : idx = 0x07 ∨ 0x0D ≤ idx) : regmap s idx = none := by
  obtain rfl | above := unmapped
  · rfl
  · obtain ⟨n, rfl⟩ := Nat.exists_eq_add_of_le' above
    rfl

theorem exec_rdreg_mapped {s : State} {idx : Nat} {value : Value} (mapped : regmap s idx = some value) :
    exec (.rdreg idx) s = .next (s.answer true value) := by
  simp only [exec, execRdreg, mapped, respond_eq]

theorem exec_rdreg_unmapped {s : State} {idx : Nat} (unmapped : regmap s idx = none) :
    exec (.rdreg idx) s = raiseIfClear .operandRange s := by
  simp only [exec, execRdreg, unmapped]

/-! ### The statements -/

/-- Settles O17: SRST answers from the reset state (`exec_srst`), and a command that leaves `ERR = 0` from a latched
`ERR` is no other (`exec_clear_before`). -/
theorem srstRestoresResetState : Obligations.SrstRestoresResetState := by
  refine ⟨by decide, by decide, fun w => decode_of_ne_pattern (row_mem .srst) rfl, fun s => exec_srst s, ?_, ?_⟩
  · intro s t h
    cases (exec_srst s).symm.trans h
    refine ⟨?_, ?_, answer_params _ false 0⟩
    · rw [answer_ready, toResetState_err, responseWord_clear]
    · rw [regmap_answer, regmap, statusWord_toResetState]
  · intro i s t latched h clear
    by_contra other
    exact latched (exec_clear_before other h clear)

/-- Settles O18: the map's values are its own rows, except the result registers (`regmap_out`) and the indices without
one (`regmap_unmapped`); what RDREG does follows from whether the index has a value. -/
theorem rdregReadsRegisterMap : Obligations.RdregReadsRegisterMap := by
  refine ⟨fun s => ⟨rfl, rfl, rfl, rfl, rfl, rfl, rfl, rfl, fun j hj => ?_, fun idx above => ?_⟩,
    fun _ _ _ => exec_rdreg_mapped, fun s idx unmapped clear => ?_, fun s idx unmapped latched => ?_,
    fun w _ => decode_iff_masked_field rowRdreg (rowRdreg_hits w) .rfl, fun s => (statusFields s).1,
    fun s atReset => ?_, ⟨_, rfl, by decide⟩⟩
  · rw [regmap_out s hj, zext24, entryAt_eq_getElem]
  · exact regmap_unmapped s (.inr above)
  · rw [exec_rdreg_unmapped (regmap_unmapped s unmapped), raiseIfClear_of_clear clear, ErrorCode.code]
  · rw [exec_rdreg_unmapped (regmap_unmapped s unmapped), raiseIfClear_of_latched latched]
  · simp only [regmap, atReset]
    decide

/-- Settles O16: only the word 0 has NOP's opcode and is legal (`decode_of_ne_pattern`); what NOP does is an answer. -/
theorem nopChangesNothing : Obligations.NopChangesNothing := by
  refine ⟨by decide, by decide, fun w => decode_of_ne_pattern (row_mem .nop) rfl, fun s => ?_, by decide⟩
  exact ⟨respond_eq false 0 s, answer_arch s false 0, answer_ready s false 0⟩

end Sys2Proof.Machine

/-! The base-30 unit (spec/41_base30.md): the commands case by case, what a pair of commands does from no pending
value, and the pairing law over a run. -/

namespace Sys2Proof.Machine

/-! ### Words, values and codewords -/

/-- R46 to R49: a command whose operand fits has exactly one word. -/
theorem decode_iff_eq_encode {w : Word} {i : Instr} (hi : i.WellFormed) : decode w = .command i ↔ w = encode i :=
  ⟨fun h => (encode_of_decode h).symm, fun h => h ▸ decode_encode hi⟩

theorem textValueLegal_iff {v : Nat} : textValueLegal v = true ↔ v ≤ 29 := decide_eq_true_iff

theorem textValue_wellFormed {v : Nat} (legal : v ≤ 29) : (Instr.txtPush v).WellFormed :=
  decide_eq_true (show v < 2 ^ 5 by omega)

theorem textValue_toNat {v : Nat} (legal : v ≤ 29) : (BitVec.ofNat 5 v).toNat = v := by
  rw [BitVec.toNat_ofNat]; omega

theorem pairCodeword_le {hi lo : Nat} (hhi : hi ≤ 29) (hlo : lo ≤ 29) : pairCodeword hi lo ≤ 899 := by
  rw [pairCodeword, Config.textBase]; omega

/-- R52: a pair's codeword fits the value field. -/
theorem pairCodeword_toNat {hi lo : Nat} (hhi : hi ≤ 29) (hlo : lo ≤ 29) :
    (BitVec.ofNat 24 (pairCodeword hi lo)).toNat = pairCodeword hi lo := by
  have := pairCodeword_le hhi hlo
  rw [BitVec.toNat_ofNat]; omega

/-! ### The two commands -/

section Commands
variable {s : State}

theorem exec_txtPush_holds {v : Nat} (clear : s.err = 0) (legal : v ≤ 29) (empty : s.txt.pend = false) :
    exec (.txtPush v) s = .next (State.answer { s with txt := Base30Unit.hold v } false 0) := by
  show execTxtPush v s = _
  rw [execTxtPush, unlessRefused_of_clear clear, if_pos (textValueLegal_iff.mpr legal), if_neg (by simp [empty]),
    respond_eq]

theorem exec_txtPush_completes {v : Nat} (clear : s.err = 0) (legal : v ≤ 29) (pend : s.txt.pend = true) :
    exec (.txtPush v) s = completePair v s := by
  show execTxtPush v s = _
  rw [execTxtPush, unlessRefused_of_clear clear, if_pos (textValueLegal_iff.mpr legal), if_pos pend]

theorem exec_txtPush_raises {v : Nat} (clear : s.err = 0) (illegal : 29 < v) :
    exec (.txtPush v) s = raise .operandRange s := by
  show execTxtPush v s = _
  rw [execTxtPush, unlessRefused_of_clear clear, if_neg (mt textValueLegal_iff.mp (by omega))]

theorem exec_txtFlush_completes (clear : s.err = 0) (pend : s.txt.pend = true) :
    exec .txtFlush s = completePair Config.textPad s := by
  show execTxtFlush s = _
  rw [execTxtFlush, unlessRefused_of_clear clear, if_pos pend]

theorem exec_txtFlush_refused (latched : s.err ≠ 0) : exec .txtFlush s = .next (s.answer false 0) :=
  unlessRefused_of_latched latched _

theorem exec_txtFlush_empty (empty : s.txt.pend = false) : exec .txtFlush s = .next (s.answer false 0) := by
  by_cases clear : s.err = 0
  · show execTxtFlush s = _
    rw [execTxtFlush, unlessRefused_of_clear clear, if_neg (by simp [empty]), respond_eq]
  · exact exec_txtFlush_refused clear

/-- R67: a flush leaves nothing that another flush would act on. -/
theorem exec_txtFlush_leaves {t : State} (h : exec .txtFlush s = .next t) : t.err ≠ 0 ∨ t.txt.pend = false := by
  by_cases clear : s.err = 0
  · right
    cases hp : s.txt.pend with
    | true => cases (exec_txtFlush_completes clear hp).symm.trans h; rfl
    | false => cases (exec_txtFlush_empty hp).symm.trans h; exact hp
  · cases (exec_txtFlush_refused clear).symm.trans h
    exact .inl clear

end Commands

/-! ### A pair of commands -/

/-- The command completes a pending value with the low digit `lo` (R66, R67). -/
structure Completes (i : Instr) (lo : Nat) : Prop where
  wellFormed : i.WellFormed
  digit : lo ≤ 29
  effect : ∀ s : State, s.err = 0 → s.txt.pend = true → exec i s = completePair lo s

theorem txtPush_completes {v : Nat} (legal : v ≤ 29) : Completes (.txtPush v) v :=
  ⟨textValue_wellFormed legal, legal, fun _ clear => exec_txtPush_completes clear legal⟩

theorem txtFlush_completes : Completes .txtFlush Config.textPad :=
  ⟨rfl, Nat.le_refl 29, fun _ => exec_txtFlush_completes⟩

/-- What the unit answers to a value held and then completed. -/
def pairResponses (hi lo : Nat) : List Word :=
  [responseWord 0 false 0, responseWord 0 true (BitVec.ofNat 24 (pairCodeword hi lo))]

/-- A run that begins with a value and a command that completes it goes on with nothing pending. -/
theorem runCommands_pair {i : Instr} {hi lo : Nat} (hhi : hi ≤ 29) (completes : Completes i lo) (rest : List Instr)
    {s : State} (idle : s.port.phase = .idle) (clear : s.err = 0) (empty : s.txt.pend = false) :
    ∃ t, runCommands (.txtPush hi :: i :: rest) s = runCommands rest t ∧ t.port.phase = .idle ∧ t.err = 0 ∧
      t.txt.pend = false ∧ t.observed = s.observed ++ pairResponses hi lo := by
  have held := runCommands_step (i :: rest) idle (textValue_wellFormed hhi) (exec_txtPush_holds clear hhi empty)
  have completed := completes.effect
    (takeResponse (State.answer { s with txt := Base30Unit.hold hi } false 0)) clear rfl
  rw [completePair_eq] at completed
  refine ⟨_, held.trans (runCommands_step rest rfl completes.wellFormed completed), rfl, clear, rfl, ?_⟩
  simp only [takeResponse_answer, Base30Unit.hold, textValue_toNat hhi, clear, List.append_assoc,
    List.singleton_append, pairResponses]

/-! ### The pairing law -/

theorem validValues_append (rs qs : List Word) : validValues (rs ++ qs) = validValues rs ++ validValues qs := by
  simp only [validValues, List.filter_append, List.map_append]

theorem validValues_pairResponses {hi lo : Nat} (hhi : hi ≤ 29) (hlo : lo ≤ 29) :
    validValues (pairResponses hi lo) = [pairCodeword hi lo] := by
  simp [validValues, pairResponses, responseValid_responseWord, responseValue_responseWord,
    pairCodeword_toNat hhi hlo]

/-- The codewords of R68, two values at a time. -/
def pairCodewords : List Nat → List Nat
  | [] => []
  | [v] => [pairCodeword v Config.textPad]
  | hi :: lo :: rest => pairCodeword hi lo :: pairCodewords rest

theorem pairCodewords_length (vs : List Nat) : (pairCodewords vs).length = (vs.length + 1) / 2 := by
  induction vs using pairCodewords.induct with
  | case1 => rfl
  | case2 v => simp [pairCodewords]
  | case3 hi lo rest ih => simp only [pairCodewords, List.length_cons, ih]; omega

theorem pairCodewords_getElem? (vs : List Nat) {m : Nat} (hm : 2 * m + 1 < vs.length) :
    (pairCodewords vs)[m]? = some (pairCodeword (vs.getD (2 * m) 0) (vs.getD (2 * m + 1) 0)) := by
  induction vs using pairCodewords.induct generalizing m with
  | case1 => simp at hm
  | case2 v => simp at hm
  | case3 hi lo rest ih =>
    cases m with
    | zero => rfl
    | succ m => exact ih (by simp only [List.length_cons] at hm; omega)

theorem pairCodewords_odd (vs : List Nat) (odd : vs.length % 2 = 1) :
    (pairCodewords vs)[vs.length / 2]? = some (pairCodeword (vs.getD (vs.length - 1) 0) Config.textPad) := by
  induction vs using pairCodewords.induct with
  | case1 => cases odd
  | case2 v => simp [pairCodewords]
  | case3 hi lo rest ih =>
    have odd' : rest.length % 2 = 1 := by simp only [List.length_cons] at odd; omega
    have half : (rest.length + 1 + 1) / 2 = rest.length / 2 + 1 := by omega
    have last : rest.length + 1 + 1 - 1 = (rest.length - 1) + 1 + 1 := by omega
    simp only [List.length_cons, half, last]
    exact ih odd'

/-- R68: a run of pushes and one flush answers the codewords of its values and leaves nothing pending. -/
theorem runCommands_pairs (vs : List Nat) {s : State} (idle : s.port.phase = .idle) (clear : s.err = 0)
    (empty : s.txt.pend = false) (legal : ∀ v ∈ vs, v ≤ 29) :
    ∃ t responses, runCommands (vs.map Instr.txtPush ++ [.txtFlush]) s = .next t ∧
      t.observed = s.observed ++ responses ∧ validValues responses = pairCodewords vs ∧ t.txt.pend = false := by
  induction vs using pairCodewords.induct generalizing s with
  | case1 =>
    have run := runCommands_step [] idle rfl (exec_txtFlush_empty empty)
    refine ⟨_, [responseWord s.err false 0], run.trans (runWords_nil _), rfl, ?_, empty⟩
    simp [validValues, responseValid_responseWord, pairCodewords]
  | case2 v =>
    obtain ⟨hv, -⟩ := List.forall_mem_cons.mp legal
    obtain ⟨t, run, -, -, empty', observed⟩ := runCommands_pair hv txtFlush_completes [] idle clear empty
    exact ⟨_, _, run.trans (runWords_nil t), observed,
      validValues_pairResponses hv txtFlush_completes.digit, empty'⟩
  | case3 hi lo rest ih =>
    obtain ⟨hhi, hlo, hrest⟩ : hi ≤ 29 ∧ lo ≤ 29 ∧ ∀ v ∈ rest, v ≤ 29 := by simpa using legal
    obtain ⟨u, first, idle', clear', empty', observed⟩ :=
      runCommands_pair hhi (txtPush_completes hlo) (rest.map Instr.txtPush ++ [.txtFlush]) idle clear empty
    obtain ⟨t, responses, run, later, values, empty''⟩ := ih idle' clear' empty' hrest
    refine ⟨t, pairResponses hi lo ++ responses, first.trans run, ?_, ?_, empty''⟩
    · rw [later, observed, List.append_assoc]
    · rw [validValues_append, validValues_pairResponses hhi hlo, values]
      rfl

/-! ### The statements -/

/-- Settles O22: the run answers the codewords two values at a time (`runCommands_pairs`); their number and places
are those of `pairCodewords`. -/
theorem pairingLaw : Obligations.PairingLaw := by
  intro s vs idle clear empty legal
  obtain ⟨t, responses, run, observed, values, empty'⟩ := runCommands_pairs vs idle clear empty legal
  refine ⟨t, responses, run, observed, ?_⟩
  rw [values]
  exact ⟨pairCodewords_length vs, fun m => pairCodewords_getElem? vs, pairCodewords_odd vs, empty'⟩

/-- Settles O20: the four forms of the command, case by case; the example is one pair (`runCommands_pair`). -/
theorem txtPushPairsValues : Obligations.TxtPushPairsValues := by
  refine ⟨fun w _ => decode_iff_masked_field rowTxtPush (rowTxtPush_hits w) .rfl,
    fun s v => exec_txtPush_holds, fun s v clear legal pend => ?_, fun s v clear illegal => ?_,
    fun s v latched => unlessRefused_of_latched latched _,
    fun hi v hhi hv => ⟨textValue_toNat hv, pairCodeword_le hhi hv, pairCodeword_toNat hhi hv⟩, ?_⟩
  · exact (exec_txtPush_completes clear legal pend).trans (completePair_eq v s)
  · exact (exec_txtPush_raises clear illegal).trans (raise_eq _ s)
  · obtain ⟨t, run, -, -, -, observed⟩ := runCommands_pair (hi := 1) (by decide)
      (txtPush_completes (v := 2) (by decide)) [] (s := State.reset) rfl rfl rfl
    exact ⟨_, run.trans (runWords_nil t), observed.trans (by decide)⟩

/-- Settles O21: with a value pending a flush completes the pair, otherwise it changes nothing, and after it there is
none (`exec_txtFlush_leaves`); the example is one pair (`runCommands_pair`). -/
theorem txtFlushPadsWith29 : Obligations.TxtFlushPadsWith29 := by
  refine ⟨by decide, fun w => decode_iff_eq_encode rfl, fun s clear pend => ?_,
    fun s _ empty => exec_txtFlush_empty empty, fun s => exec_txtFlush_refused, fun s t flushed => ?_, ?_⟩
  · exact (exec_txtFlush_completes clear pend).trans (completePair_eq _ s)
  · exact (exec_txtFlush_leaves flushed).elim exec_txtFlush_refused exec_txtFlush_empty
  · obtain ⟨t, run, -, -, -, observed⟩ := runCommands_pair (hi := 0) (by decide) txtFlush_completes []
      (s := State.reset) rfl rfl rfl
    exact ⟨_, run.trans (runWords_nil t), observed.trans (by decide)⟩

end Sys2Proof.Machine

/-! The base-900 unit (spec/42_base900.md): the conversion entry by entry, the commands case by case, what runs of
pushes, flushes and reads answer while a group is held, and the group law over a payload. -/

namespace Sys2Proof.Machine

/-! ### The conversion (R72) -/

theorem iterate_div (a j : Nat) : (fun x => x / 900)^[j] a = a / 900 ^ j := by
  induction j with
  | zero => simp
  | succ j ih => rw [Function.iterate_succ_apply', ih, Nat.div_div_eq_div_mul, Nat.pow_succ]

/-- With `m` divisions left the loop writes the lowest `m` digits of `a` to base 900, the last one lowest. -/
theorem conv900Loop_entry {m : Nat} (hm : m ≤ 5) (a : Nat) (out : Vector Codeword 5) (j : Nat) :
    entryAt (conv900Loop m a out) j =
      if j < m then BitVec.ofNat 10 (a / 900 ^ (m - 1 - j) % 900) else entryAt out j := by
  induction m generalizing a out with
  | zero => rfl
  | succ m ih =>
    rw [conv900Loop, ih (Nat.le_of_succ_le hm), entryAt_set, Config.groupBase]
    rcases Nat.lt_trichotomy j m with below | rfl | above
    · have place : m + 1 - 1 - j = (m - 1 - j) + 1 := by omega
      rw [if_pos below, if_pos (by omega), place, Nat.pow_succ', Nat.div_div_eq_div_mul]
    · rw [if_neg (Nat.lt_irrefl j), if_pos ⟨rfl, hm⟩, if_pos (Nat.lt_succ_self j)]
      simp
    · rw [if_neg (by omega), if_neg (by omega), if_neg (by omega)]

/-- R72: the closed form of a codeword. -/
theorem conv900_entry (a : Nat) {m : Nat} (hm : m < 5) :
    (entryAt (conv900 a) m).toNat = a / 900 ^ (4 - m) % 900 := by
  have entry : entryAt (conv900 a) m = BitVec.ofNat 10 (a / 900 ^ (4 - m) % 900) :=
    (conv900Loop_entry (Nat.le_refl 5) a _ m).trans (if_pos hm)
  rw [entry, BitVec.toNat_ofNat]
  exact Nat.mod_eq_of_lt (by omega)

/-- R72: five digits to base 900 are enough for every 48-bit value. -/
theorem base900_digits_sum {a : Nat} (ha : a < 2 ^ 48) :
    a / 900 ^ 4 % 900 * 900 ^ 4 + a / 900 ^ 3 % 900 * 900 ^ 3 + a / 900 ^ 2 % 900 * 900 ^ 2 +
      a / 900 ^ 1 % 900 * 900 + a / 900 ^ 0 % 900 = a := by
  omega

/-! ### The commands -/

/-- R23, R24: at most six bytes fit the register, so a push never overflows it. -/
theorem pushedAcc_fits {u : Base900Unit} (room : u.n.toNat ≤ 5) (hacc : u.acc.toNat < 256 ^ u.n.toNat) {b : Nat}
    (hb : b < 256) :
    pushedAcc u b < 256 ^ (u.n.toNat + 1) ∧ 256 ^ (u.n.toNat + 1) ≤ 2 ^ 48 ∧
      (BitVec.ofNat 48 (pushedAcc u b)).toNat = pushedAcc u b := by
  have bound : pushedAcc u b < 256 ^ (u.n.toNat + 1) := by rw [pushedAcc, Nat.pow_succ]; omega
  have six : 256 ^ (u.n.toNat + 1) ≤ 256 ^ 6 := Nat.pow_le_pow_right (by decide) (Nat.succ_le_succ room)
  have fits : 256 ^ (u.n.toNat + 1) ≤ 2 ^ 48 := six
  exact ⟨bound, fits, by rw [BitVec.toNat_ofNat]; exact Nat.mod_eq_of_lt (bound.trans_le fits)⟩

theorem accumulate_eq (u : Base900Unit) (b : Nat) :
    u.accumulate b = { u with n := u.n + 1, acc := BitVec.ofNat 48 (u.acc.toNat * 256 + b) } := by
  rw [Base900Unit.accumulate, BitVec.ofNat_add, BitVec.ofNat_toNat, BitVec.setWidth_eq]
  rfl

theorem exec_b900Flush_flushes {s : State} (clear : s.err = 0) :
    exec .b900Flush s = .next (State.answer { s with b900 := s.b900.flush } true (zext24 s.b900.n)) :=
  unlessRefused_of_clear clear _

/-- R73: byte `j` of the partial group as a digit of the accumulation. -/
theorem flush_entry_toNat (u : Base900Unit) {j : Nat} (hj : j < 5) :
    (entryAt u.flush.out j).toNat =
      if j < u.n.toNat then u.acc.toNat / 256 ^ (u.n.toNat - 1 - j) % 256 else 0 := by
  rw [flush_entry u hj, flushEntry]
  split
  · rw [BitVec.toNat_setWidth_of_le (by decide), toNat_extractLsb', Nat.pow_mul]
    rfl
  · rfl

theorem exec_b900Mode_answers {s : State} (clear : s.err = 0) (len : Nat) :
    exec (.b900Mode len) s = .next (s.answer true (zext24 (modeIndicator s.params len))) :=
  unlessRefused_of_clear clear _

theorem modeIndicator_one (p : Params) : modeIndicator p 1 = p.modeShiftByte := rfl

theorem modeIndicator_multiple (p : Params) {len : Nat} (h : len % 6 = 0) : modeIndicator p len = p.modeByte6 := by
  rw [modeIndicator, if_neg (by omega), if_pos h]

theorem modeIndicator_other (p : Params) {len : Nat} (one : len ≠ 1) (h : len % 6 ≠ 0) :
    modeIndicator p len = p.modeByte := by
  rw [modeIndicator, if_neg one, if_neg h]

/-! ### Runs while a group is held -/

/-- The commands `is` lead from `s` to `t` with the responses `rs`, whatever the host issues after them. -/
structure Leads (s : State) (is : List Instr) (rs : List Word) (t : State) : Prop where
  run : ∀ rest, runCommands (is ++ rest) s = runCommands rest t
  observed : t.observed = s.observed ++ rs
  length : rs.length = is.length

theorem Leads.refl (s : State) : Leads s [] [] s := ⟨fun _ => rfl, (List.append_nil _).symm, rfl⟩

theorem Leads.trans {s t u : State} {is js : List Instr} {rs qs : List Word} (h : Leads s is rs t)
    (h' : Leads t js qs u) : Leads s (is ++ js) (rs ++ qs) u where
  run rest := by rw [List.append_assoc, h.run, h'.run]
  observed := by rw [h'.observed, h.observed, List.append_assoc]
  length := by rw [List.length_append, List.length_append, h.length, h'.length]

/-- The host issues nothing more. -/
theorem Leads.finish {s t : State} {is : List Instr} {rs : List Word} (h : Leads s is rs t) :
    runCommands is s = .next { t with line := [] } := by
  have run := h.run []
  rw [List.append_nil] at run
  exact run.trans (runWords_nil t)

/-- The port is idle, no error is latched, and the partial group is `bytes` (R23, R24). -/
structure Holding (s : State) (bytes : List Nat) : Prop where
  idle : s.port.phase = .idle
  clear : s.err = 0
  count : s.b900.n.toNat = bytes.length
  value : s.b900.acc.toNat = bytesValue bytes
  bound : s.b900.acc.toNat < 256 ^ s.b900.n.toNat
  bytes : ∀ b ∈ bytes, b < 256

theorem holding_nil {s : State} (idle : s.port.phase = .idle) (clear : s.err = 0) (n : s.b900.n = 0)
    (acc : s.b900.acc = 0) : Holding s [] := by
  refine ⟨idle, clear, ?_, ?_, ?_, nofun⟩ <;> simp [n, acc, bytesValue]

section Runs
variable {s : State} {bytes : List Nat}

/-- One command that writes nothing but the base-900 unit. -/
theorem Holding.leads (h : Holding s bytes) {i : Instr} (hi : i.WellFormed) {b900 : Base900Unit} {valid : Bool}
    {value : Value} (run : exec i s = .next (State.answer { s with b900 := b900 } valid value)) :
    Leads s [i] [responseWord 0 valid value] (takeResponse (State.answer { s with b900 := b900 } valid value)) where
  run rest := runCommands_step rest h.idle hi run
  observed := by simp [h.clear]
  length := rfl

theorem byte_wellFormed {b : Nat} (hb : b < 256) : (Instr.b900Push b).WellFormed := decide_eq_true hb

theorem Holding.push (h : Holding s bytes) (room : bytes.length < 5) {b : Nat} (hb : b < 256) :
    ∃ t, Leads s [.b900Push b] [responseWord 0 false 0] t ∧ Holding t (bytes ++ [b]) := by
  have part : s.b900.n.toNat < 5 := h.count ▸ room
  obtain ⟨acc, bound⟩ := accumulate_acc part h.bound hb
  have n := accumulate_n part b
  refine ⟨_, h.leads (byte_wellFormed hb) (execB900Push_accumulates h.clear part b), rfl, h.clear, ?_, ?_, ?_, ?_⟩
  · rw [takeResponse_b900, answer_b900, n, h.count, List.length_append, List.length_singleton]
  · rw [takeResponse_b900, answer_b900, acc, h.value, bytesValue_append]
  · rw [takeResponse_b900, answer_b900, acc, n]
    exact bound
  · exact List.forall_mem_append.mpr ⟨h.bytes, List.forall_mem_singleton.mpr hb⟩

/-- R71: bytes that do not complete the group are added to it. -/
theorem Holding.pushes (h : Holding s bytes) (more : List Nat) (room : bytes.length + more.length ≤ 5)
    (hb : ∀ b ∈ more, b < 256) :
    ∃ t, Leads s (more.map Instr.b900Push) (List.replicate more.length (responseWord 0 false 0)) t ∧
      Holding t (bytes ++ more) := by
  induction more generalizing s bytes with
  | nil => exact ⟨s, .refl s, by rwa [List.append_nil]⟩
  | cons b more ih =>
    rw [List.length_cons] at room
    obtain ⟨hlt, hmore⟩ := List.forall_mem_cons.mp hb
    obtain ⟨t, first, held⟩ := h.push (by omega) hlt
    obtain ⟨u, later, held'⟩ := ih held (by rw [List.length_append, List.length_singleton]; omega) hmore
    rw [List.append_assoc] at held'
    exact ⟨u, first.trans later, held'⟩

/-- R71, R72: the push that completes a group. -/
theorem Holding.complete (h : Holding s bytes) (five : bytes.length = 5) {b : Nat} (hb : b < 256) :
    ∃ t, Leads s [.b900Push b] [responseWord 0 true 5] t ∧ Holding t [] ∧
      t.b900.out = conv900 (bytesValue (bytes ++ [b])) := by
  have full : s.b900.n = 5 := BitVec.eq_of_toNat_eq (h.count.trans five)
  refine ⟨_, h.leads (byte_wellFormed hb) (execB900Push_completes h.clear full b),
    holding_nil rfl h.clear rfl rfl, ?_⟩
  show conv900 (s.b900.acc.toNat * 256 + b) = _
  rw [h.value, bytesValue_append]

/-- R71, R72: six pushes from no partial group. -/
theorem Holding.group (h : Holding s []) {first : List Nat} (five : first.length = 5) {b : Nat}
    (hb : ∀ x ∈ first ++ [b], x < 256) :
    ∃ t, Leads s ((first ++ [b]).map Instr.b900Push)
        (List.replicate 5 (responseWord 0 false 0) ++ [responseWord 0 true 5]) t ∧
      Holding t [] ∧ t.b900.out = conv900 (bytesValue (first ++ [b])) := by
  obtain ⟨hfirst, hlast⟩ := List.forall_mem_append.mp hb
  obtain ⟨t, pushed, held⟩ := h.pushes first (by simp [five]) hfirst
  obtain ⟨u, completed, empty, out⟩ := held.complete five (hlast b (List.mem_singleton_self b))
  rw [five] at pushed
  exact ⟨u, List.map_append ▸ pushed.trans completed, empty, out⟩

/-- R73: a flush leaves the bytes in the result registers, in input order. -/
theorem Holding.flush (h : Holding s bytes) :
    ∃ t, Leads s [.b900Flush] [responseWord 0 true (BitVec.ofNat 24 bytes.length)] t ∧ Holding t [] ∧
      t.b900.outN.toNat = bytes.length ∧ ∀ j, j < 5 → (entryAt t.b900.out j).toNat = bytes.getD j 0 := by
  have flushed := exec_b900Flush_flushes h.clear
  rw [zext24, ← BitVec.ofNat_toNat, h.count] at flushed
  refine ⟨_, h.leads rfl flushed, holding_nil rfl h.clear rfl rfl, h.count,
    fun j hj => (flush_entry_toNat s.b900 hj).trans ?_⟩
  rw [h.count, h.value]
  split
  · next lt => exact bytesValue_byte h.bytes lt
  · next beyond => exact (List.getD_eq_default _ _ (Nat.le_of_not_lt beyond)).symm

/-- R27: reading result registers changes nothing. -/
theorem Holding.reads (h : Holding s bytes) (js : List Nat) (hjs : ∀ j ∈ js, j < 5) :
    ∃ t, Leads s (js.map fun j => .rdreg (0x08 + j))
        (js.map fun j => responseWord 0 true (zext24 (entryAt s.b900.out j))) t ∧
      Holding t bytes ∧ t.b900 = s.b900 := by
  induction js generalizing s with
  | nil => exact ⟨s, .refl s, h, rfl⟩
  | cons j js ih =>
    obtain ⟨hj, hjs⟩ := List.forall_mem_cons.mp hjs
    have fits : (Instr.rdreg (0x08 + j)).WellFormed := decide_eq_true (show 0x08 + j < 2 ^ 8 by omega)
    have first := h.leads (b900 := s.b900) fits (exec_rdreg_mapped (regmap_out s hj))
    obtain ⟨t, later, held, same⟩ := ih
      (s := takeResponse (s.answer true (zext24 (entryAt s.b900.out j))))
      ⟨rfl, h.clear, h.count, h.value, h.bound, h.bytes⟩ hjs
    exact ⟨t, first.trans later, held, same⟩

end Runs

/-! ### What the host reads -/

theorem rdregValues_append {is js : List Instr} {rs qs : List Word} (h : rs.length = is.length) :
    rdregValues (is ++ js) (rs ++ qs) = rdregValues is rs ++ rdregValues js qs := by
  rw [rdregValues, List.zip_append h.symm, List.filterMap_append]
  rfl

theorem rdregValues_pushes (bytes : List Nat) (rs : List Word) : rdregValues (bytes.map Instr.b900Push) rs = [] := by
  refine List.filterMap_eq_nil_iff.mpr fun cr member => ?_
  obtain ⟨b, -, push⟩ := List.mem_map.mp (List.of_mem_zip member).1
  rw [← push]

theorem rdregValues_reads (js : List Nat) (out : Vector Codeword 5) :
    rdregValues (js.map fun j => .rdreg (0x08 + j)) (js.map fun j => responseWord 0 true (zext24 (entryAt out j))) =
      js.map fun j => (entryAt out j).toNat := by
  induction js with
  | nil => rfl
  | cons j js ih =>
    rw [List.map_cons, List.map_cons, List.map_cons, ← ih, rdregValues, List.zip_cons_cons, List.filterMap_cons]
    simp only [responseValue_responseWord, if_true, zext24, BitVec.toNat_setWidth_of_le (show 10 ≤ 24 by decide)]
    rfl

/-- R72: the result registers after a group, as the host reads them. -/
theorem conv900_digits (a : Nat) : (List.range 5).map (fun j => (entryAt (conv900 a) j).toNat) = groupDigits a := by
  rw [List.map_congr_left fun j hj => conv900_entry a (List.mem_range.mp hj)]
  simp [List.range_succ, groupDigits]

theorem map_getD_range (bytes : List Nat) : (List.range bytes.length).map (bytes.getD · 0) = bytes :=
  List.ext_getElem (by simp) fun j _ hj => by simp [hj]

/-! ### The group law (R75) -/

/-- The commands `is` lead from `s` to `t`, and the host reads `values` from the result registers on the way. -/
structure Delivers (s : State) (is : List Instr) (rs : List Word) (values : List Nat) (t : State) : Prop where
  leads : Leads s is rs t
  values : rdregValues is rs = values

theorem Delivers.trans {s t u : State} {is js : List Instr} {rs qs : List Word} {vs ws : List Nat}
    (h : Delivers s is rs vs t) (h' : Delivers t js qs ws u) : Delivers s (is ++ js) (rs ++ qs) (vs ++ ws) u where
  leads := h.leads.trans h'.leads
  values := by rw [rdregValues_append h.leads.length, h.values, h'.values]

/-- Six pushes from no partial group and five reads deliver the group's codewords. -/
theorem Holding.delivers_group {s : State} (h : Holding s []) {first : List Nat} (five : first.length = 5) {b : Nat}
    (hb : ∀ x ∈ first ++ [b], x < 256) :
    ∃ rs t, Delivers s ((first ++ [b]).map Instr.b900Push ++ (List.range 5).map fun j => .rdreg (0x08 + j)) rs
        (groupDigits (bytesValue (first ++ [b]))) t ∧ Holding t [] := by
  obtain ⟨t, pushed, empty, out⟩ := h.group five hb
  obtain ⟨u, read, empty', -⟩ := empty.reads (List.range 5) fun j => List.mem_range.mp
  refine ⟨_, u, ⟨pushed.trans read, ?_⟩, empty'⟩
  rw [rdregValues_append pushed.length, rdregValues_pushes, rdregValues_reads, out, conv900_digits, List.nil_append]

/-- Fewer bytes than a group, a flush, and as many reads deliver the bytes; with no bytes the flush answers last. -/
theorem Holding.delivers_rest {s : State} (h : Holding s []) {bytes : List Nat} (short : bytes.length < 6)
    (hb : ∀ b ∈ bytes, b < 256) :
    ∃ rs t, Delivers s
        (bytes.map Instr.b900Push ++ .b900Flush :: (List.range bytes.length).map fun j => .rdreg (0x08 + j)) rs
        bytes t ∧
      Holding t [] ∧ t.b900.outN.toNat = bytes.length ∧
      (bytes.length = 0 → rs.getLast? = some (responseWord 0 true 0)) := by
  have places : ∀ j ∈ List.range bytes.length, j < 5 := fun j hj => by have := List.mem_range.mp hj; omega
  obtain ⟨t, pushed, held⟩ := h.pushes bytes (Nat.le_of_lt_succ (by simpa using short)) hb
  obtain ⟨u, flushed, empty, outN, out⟩ := held.flush
  obtain ⟨v, read, empty', same⟩ := empty.reads (List.range bytes.length) places
  refine ⟨_, v, ⟨pushed.trans (flushed.trans read), ?_⟩, empty', same ▸ outN, fun none => ?_⟩
  · rw [rdregValues_append pushed.length, rdregValues_pushes, List.nil_append]
    refine (rdregValues_reads _ _).trans ?_
    rw [List.map_congr_left fun j hj => out j (places j hj)]
    exact map_getD_range bytes
  · cases List.length_eq_zero_iff.mp none
    rfl

/-- What the definitions of R75 match last: fewer bytes than a group. -/
theorem length_lt_six {bytes : List Nat}
    (short : ∀ b0 b1 b2 b3 b4 b5 rest, bytes = b0 :: b1 :: b2 :: b3 :: b4 :: b5 :: rest → False) :
    bytes.length < 6 := by
  rcases bytes with _ | ⟨b0, _ | ⟨b1, _ | ⟨b2, _ | ⟨b3, _ | ⟨b4, _ | ⟨b5, rest⟩⟩⟩⟩⟩⟩
  case cons.cons.cons.cons.cons.cons => exact (short _ _ _ _ _ _ _ rfl).elim
  all_goals simp

theorem payloadCodewords_length (bytes : List Nat) :
    (payloadCodewords bytes).length = 5 * (bytes.length / 6) + bytes.length % 6 := by
  induction bytes using payloadCodewords.induct with
  | case1 b0 b1 b2 b3 b4 b5 rest ih =>
    simp only [payloadCodewords, groupDigits, List.length_append, List.length_cons, List.length_nil, ih]
    omega
  | case2 rest short =>
    have lt := length_lt_six short
    rw [payloadCodewords.eq_2 _ short]
    omega

/-- R75, group by group: the run of a payload delivers its codewords and leaves no partial group. -/
theorem Holding.delivers_payload {s : State} (h : Holding s []) (bytes : List Nat) (hb : ∀ b ∈ bytes, b < 256) :
    ∃ rs t, Delivers s (payloadCommands bytes) rs (payloadCodewords bytes) t ∧ Holding t [] ∧
      t.b900.outN.toNat = bytes.length % 6 ∧
      (bytes.length % 6 = 0 → rs.getLast? = some (responseWord 0 true 0)) := by
  induction bytes using payloadCodewords.induct generalizing s with
  | case1 b0 b1 b2 b3 b4 b5 rest ih =>
    obtain ⟨hgroup, hrest⟩ :=
      List.forall_mem_append.mp (show ∀ b ∈ [b0, b1, b2, b3, b4] ++ [b5] ++ rest, b < 256 from hb)
    obtain ⟨rs, t, group, empty⟩ := h.delivers_group rfl hgroup
    obtain ⟨qs, u, later, empty', count, last⟩ := ih empty hrest
    have length : (b0 :: b1 :: b2 :: b3 :: b4 :: b5 :: rest).length % 6 = rest.length % 6 :=
      Nat.add_mod_right rest.length 6
    refine ⟨rs ++ qs, u, group.trans later, empty', count.trans length.symm, fun multiple => ?_⟩
    rw [List.getLast?_append, last (length.symm.trans multiple), Option.some_or]
  | case2 rest short =>
    have lt := length_lt_six short
    rw [payloadCommands.eq_2 _ short, payloadCodewords.eq_2 _ short, Nat.mod_eq_of_lt lt]
    exact h.delivers_rest lt hb

/-! ### The statements -/

theorem reset_holding : Holding State.reset [] := holding_nil rfl rfl rfl rfl

/-- Settles O28: a payload's run is `Holding.delivers_payload`, and the number of its codewords is
`payloadCodewords_length`. -/
theorem payloadGroupLaw : Obligations.PayloadGroupLaw := by
  intro s bytes idle clear n acc hb
  obtain ⟨rs, t, ⟨leads, values⟩, empty, count, last⟩ := (holding_nil idle clear n acc).delivers_payload bytes hb
  exact ⟨_, rs, leads.finish, leads.observed, leads.length, values, payloadCodewords_length bytes,
    BitVec.eq_of_toNat_eq empty.count, count, last⟩

/-- Settles O24: each codeword is a digit of the value (`conv900_entry`), the remainders are the same digits
(`iterate_div`), and five digits make up the value (`base900_digits_sum`). -/
theorem conv900DividesExactly : Obligations.Conv900DividesExactly := by
  intro a ha
  simp only [iterate_div]
  refine ⟨fun j hj => ?_, Nat.div_eq_of_lt (ha.trans (by decide)), fun m hm => ?_, ?_, ?_⟩
  · rw [conv900_entry a (by omega), show 4 - (4 - j) = j by omega]
  · have entry := conv900_entry a hm
    exact ⟨entry, by omega⟩
  · simpa only [conv900_entry a (show 0 < 5 by decide), conv900_entry a (show 1 < 5 by decide),
      conv900_entry a (show 2 < 5 by decide), conv900_entry a (show 3 < 5 by decide),
      conv900_entry a (show 4 < 5 by decide)] using base900_digits_sum ha
  · rw [conv900_entry a (by decide)]
    omega

/-- Settles O23: the two forms of the command and its refusal; the bound is `pushedAcc_fits`, and the example is one
group (`Holding.group`). -/
theorem b900PushAccumulatesAndConverts : Obligations.B900PushAccumulatesAndConverts := by
  refine ⟨fun w _ => decode_iff_masked_field rowB900Push (rowB900Push_hits w) .rfl,
    fun s b clear full => execB900Push_completes clear full b, fun s b clear part => ?_,
    fun s b latched => unlessRefused_of_latched latched _, fun u b room bound hb => pushedAcc_fits room bound hb, ?_⟩
  · rw [← accumulate_eq]
    exact execB900Push_accumulates clear part b
  · obtain ⟨t, pushed, -, out⟩ := reset_holding.group (first := [0x41, 0x42, 0x43, 0x44, 0x45]) (b := 0x46) rfl
      (by decide)
    exact ⟨_, pushed.finish, pushed.observed.trans (by decide), out.trans (by decide)⟩

/-- Settles O25: the entries are digits of the accumulation (`flush_entry_toNat`); the example is three pushes and a
flush (`Holding.pushes`, `Holding.flush`). -/
theorem b900FlushPassesBytesThrough : Obligations.B900FlushPassesBytesThrough := by
  refine ⟨by decide, fun w => decode_iff_eq_encode rfl, fun s clear => ?_,
    fun s latched => unlessRefused_of_latched latched _, ?_⟩
  · refine ⟨s.b900.flush.out, exec_b900Flush_flushes clear, fun j hj => ?_⟩
    rw [← entryAt_eq_getElem _ j hj, flush_entry_toNat _ hj]
  · obtain ⟨t, pushed, held⟩ := reset_holding.pushes [1, 2, 3] (by decide) (by decide)
    obtain ⟨u, flushed, -, outN, out⟩ := held.flush
    have run := pushed.trans flushed
    refine ⟨_, run.finish, run.observed.trans (by decide), ?_, BitVec.eq_of_toNat_eq outN⟩
    refine Vector.ext fun j hj => BitVec.eq_of_toNat_eq ?_
    rw [← entryAt_eq_getElem _ j hj, out j hj]
    interval_cases j <;> rfl

/-- Settles O26: the command answers `modeIndicator`, whose three cases are `modeIndicator_one`,
`modeIndicator_multiple` and `modeIndicator_other`. -/
theorem b900ModeChoosesIndicator : Obligations.B900ModeChoosesIndicator := by
  refine ⟨fun w _ => decode_iff_masked_field rowB900Mode (rowB900Mode_hits w) .rfl,
    fun s clear => exec_b900Mode_answers clear 1, fun s len clear multiple => ?_, fun s len clear one other => ?_,
    fun s len latched => unlessRefused_of_latched latched _, fun s clear shift six => ?_⟩
  · rw [exec_b900Mode_answers clear, modeIndicator_multiple _ multiple, zext24]
  · rw [exec_b900Mode_answers clear, modeIndicator_other _ one other, zext24]
  · refine ⟨_, _, exec_b900Mode_answers clear 1, ?_, exec_b900Mode_answers clear 12, ?_⟩
    · rw [answer_ready, clear, modeIndicator_one, shift]
      decide
    · rw [answer_ready, clear, modeIndicator_multiple _ (by decide), six]
      decide

end Sys2Proof.Machine

/-! The RS unit (spec/43_rs.md): the reduction step entry by entry and against the source's loop, the commands case by
case, and what the host reads after it fed a data block. -/

namespace Sys2Proof.Machine

/-! ### The reduction step (R84) -/

/-- The loop from the entry `k - 1` down to 0, as a fold over the entries in that order. -/
theorem rsLoop_eq_foldl (coef : Nat → Codeword) (t k : Nat) (acc : Vector Codeword 512) :
    rsLoop coef t k acc =
      (List.range k).reverse.foldl
        (fun v j => v.setIfInBounds j (BitVec.ofNat 10 (reducedEntry (prevEntry v j) t (coef j).toNat))) acc := by
  induction k generalizing acc with
  | zero => rfl
  | succ k ih => rw [rsLoop, ih, List.range_succ, List.reverse_concat, List.foldl_cons]

theorem reducedEntry_le (prev t a : Nat) : reducedEntry prev t a ≤ 928 :=
  Nat.le_of_lt_succ (reducedEntry_lt prev t a)

/-- R82: an update term of 0 leaves the entry below as it is. -/
theorem reducedEntry_of_mul_mod_eq_zero {prev t a : Nat} (small : prev ≤ 928) (zero : t * a % 929 = 0) :
    reducedEntry prev t a = prev := by
  simp only [reducedEntry, Config.modulus, zero]
  omega

theorem prevEntry_le {acc : Vector Codeword 512} (h : ∀ j, (entryAt acc j).toNat ≤ 928) (j : Nat) :
    prevEntry acc j ≤ 928 := by
  unfold prevEntry
  split
  · exact Nat.zero_le _
  · exact h _

section Step
variable {l : Nat} (p : Params) (d : Nat) (acc : Vector Codeword 512)

/-- R82: entries from `K` up are not written. -/
theorem rsStep_entry_beyond {j : Nat} (beyond : Config.corrections l ≤ j) :
    entryAt (rsStep p l d acc) j = entryAt acc j := by
  rw [rsStep_entry, if_neg (by omega)]

/-- R84: an entry below `K` after the step, from the entries before it. -/
theorem rsStep_entry_toNat (le : l ≤ 8) {j : Nat} (hj : j < Config.corrections l) :
    (entryAt (rsStep p l d acc) j).toNat =
      reducedEntry (prevEntry acc j) (feedTerm d (entryAt acc (Config.corrections l - 1)).toNat)
        (coefAt p l j).toNat := by
  rw [rsStep_entry, if_pos ⟨hj, hj.trans_le (corrections_le le)⟩, ofNat_toNat_of_lt (reducedEntry_lt _ _ _)]

/-- R19: the step leaves codewords where it found codewords. -/
theorem rsStep_entry_le (le : l ≤ 8) (h : ∀ j, (entryAt acc j).toNat ≤ 928) (j : Nat) :
    (entryAt (rsStep p l d acc) j).toNat ≤ 928 := by
  by_cases hj : j < Config.corrections l
  · rw [rsStep_entry_toNat p d acc le hj]
    exact reducedEntry_le _ _ _
  · rw [rsStep_entry_beyond p d acc (Nat.le_of_not_lt hj)]
    exact h j

/-- R82: where the update term vanishes, an entry takes the one below it. -/
theorem rsStep_entry_shift (le : l ≤ 8) (h : ∀ j, (entryAt acc j).toNat ≤ 928) {j : Nat}
    (hj : j < Config.corrections l)
    (zero : feedTerm d (entryAt acc (Config.corrections l - 1)).toNat * (coefAt p l j).toNat % 929 = 0) :
    entryAt (rsStep p l d acc) j = if j = 0 then 0 else entryAt acc (j - 1) := by
  refine BitVec.eq_of_toNat_eq ?_
  rw [rsStep_entry_toNat p d acc le hj, reducedEntry_of_mul_mod_eq_zero (prevEntry_le h j) zero, prevEntry,
    apply_ite BitVec.toNat]
  rfl

end Step

/-! ### The step and the source's loop (R85) -/

/-- The first `k` entries, as the source's array of naturals. -/
def entryValues (k : Nat) (acc : Vector Codeword 512) : List Nat := (List.range k).map fun j => (entryAt acc j).toNat

theorem entryValues_getD {k j : Nat} (hj : j < k) (acc : Vector Codeword 512) :
    (entryValues k acc).getD j 0 = (entryAt acc j).toNat := by
  simp [entryValues, hj]

/-- Writing an entry writes the source's array at the same place. -/
theorem entryValues_set {k j : Nat} (hj : j < k) (hk : k ≤ 512) (acc : Vector Codeword 512) (v : Codeword) :
    entryValues k (acc.setIfInBounds j v) = (entryValues k acc).set j v.toNat := by
  refine List.ext_getElem (by simp [entryValues]) fun i _ _ => ?_
  simp only [entryValues, List.getElem_map, List.getElem_range, List.getElem_set, entryAt_set]
  rw [apply_ite BitVec.toNat]
  exact ite_congr (propext (and_iff_left (hj.trans_le hk))) (fun _ => rfl) fun _ => rfl

theorem prevEntry_eq_getD {k j : Nat} (hj : j < k) (acc : Vector Codeword 512) :
    prevEntry acc j = if j = 0 then 0 else (entryValues k acc).getD (j - 1) 0 := by
  rw [entryValues_getD (by omega), prevEntry]

/-- The block's loop is the source's on the values of the first `k` entries, write by write. -/
theorem sourceLoop_entryValues (coef : Nat → Codeword) (t : Nat) {j k : Nat} (hjk : j ≤ k) (hk : k ≤ 512)
    (acc : Vector Codeword 512) :
    sourceLoop (fun i => (coef i).toNat) t j (entryValues k acc) = entryValues k (rsLoop coef t j acc) := by
  induction j generalizing acc with
  | zero => rfl
  | succ j ih =>
    rw [rsLoop, ← ih (Nat.le_of_succ_le hjk), entryValues_set hjk hk, ofNat_toNat_of_lt (reducedEntry_lt _ _ _),
      prevEntry_eq_getD hjk]
    rfl

theorem sourceStep_entryValues {l : Nat} (le : l ≤ 8) (p : Params) (acc : Vector Codeword 512) (d : Nat) :
    sourceStep (fun j => (coefAt p l j).toNat) (Config.corrections l) (entryValues (Config.corrections l) acc) d =
      entryValues (Config.corrections l) (rsStep p l d acc) := by
  have top : Config.corrections l - 1 < Config.corrections l := Nat.sub_lt (corrections_pos l) Nat.one_pos
  rw [sourceStep, entryValues_getD top, sourceLoop_entryValues _ _ (Nat.le_refl _) (corrections_le le)]
  rfl

/-- The accumulator after a data block was fed from zero (R81, R82). -/
def absorbed (p : Params) (l : Nat) (data : List Nat) : Vector Codeword 512 :=
  data.foldl (fun acc d => rsStep p l d acc) (Vector.replicate 512 0)

theorem absorbed_concat (p : Params) (l : Nat) (data : List Nat) (d : Nat) :
    absorbed p l (data ++ [d]) = rsStep p l d (absorbed p l data) :=
  List.foldl_concat _ _ _ _

theorem absorbed_entry_le {l : Nat} (le : l ≤ 8) (p : Params) (data : List Nat) (j : Nat) :
    (entryAt (absorbed p l data) j).toNat ≤ 928 := by
  induction data using List.reverseRecOn generalizing j with
  | nil => exact entryAt_zeros_le 928 j
  | append_singleton data d ih => rw [absorbed_concat]; exact rsStep_entry_le p d _ le ih j

/-- The source's array after the same data block. -/
theorem entryValues_absorbed {l : Nat} (le : l ≤ 8) (p : Params) (data : List Nat) :
    entryValues (Config.corrections l) (absorbed p l data) =
      data.foldl (sourceStep (fun j => (coefAt p l j).toNat) (Config.corrections l))
        (List.replicate (Config.corrections l) 0) := by
  induction data using List.reverseRecOn with
  | nil =>
    simp only [entryValues, absorbed, List.foldl_nil, entryAt_zeros, List.map_const', List.length_range]
    rfl
  | append_singleton data d ih => rw [absorbed_concat, List.foldl_concat, ← ih, sourceStep_entryValues le]

/-- Output position `i` after a data block: the accumulator negated and reversed (R83). -/
def correction (p : Params) (l : Nat) (data : List Nat) (i : Nat) : Codeword :=
  neg929 (entryAt (absorbed p l data) (Config.corrections l - 1 - i))

theorem correction_toNat {l : Nat} (le : l ≤ 8) (p : Params) (data : List Nat) (i : Nat) :
    (correction p l data i).toNat =
      if (entryAt (absorbed p l data) (Config.corrections l - 1 - i)).toNat = 0 then 0
      else 929 - (entryAt (absorbed p l data) (Config.corrections l - 1 - i)).toNat :=
  neg929_toNat (absorbed_entry_le le p data _)

/-- R85: the outputs are the source's final correction codeword sequence. -/
theorem sourceCorrections_eq {l : Nat} (le : l ≤ 8) (p : Params) (data : List Nat) :
    sourceCorrections (fun j => (coefAt p l j).toNat) (Config.corrections l) data =
      (List.range (Config.corrections l)).map fun i => (correction p l data i).toNat := by
  rw [sourceCorrections, ← entryValues_absorbed le]
  refine List.ext_getElem (by simp [entryValues]) fun i _ _ => ?_
  simp [entryValues, correction_toNat le]

/-- R84: the step from zero on a single 1 leaves the negated coefficients. -/
theorem absorbed_one_entry {l j : Nat} (le : l ≤ 8) (hj : j < Config.corrections l) (p : Params) :
    (entryAt (absorbed p l [1]) j).toNat = (929 - (coefAt p l j).toNat % 929) % 929 := by
  rw [← List.nil_append [1], absorbed_concat, rsStep_entry_toNat p 1 _ le hj]
  simp only [absorbed, List.foldl_nil, entryAt_zeros, prevEntry, reducedEntry, feedTerm, Config.modulus]
  simp

/-- The read negates once more (spec/95_test_vectors.md 2.5). -/
theorem correction_one {l i : Nat} (le : l ≤ 8) (hi : i < Config.corrections l) (p : Params)
    (small : (coefAt p l (Config.corrections l - 1 - i)).toNat ≤ 928) :
    correction p l [1] i = coefAt p l (Config.corrections l - 1 - i) := by
  refine BitVec.eq_of_toNat_eq ?_
  rw [correction_toNat le, absorbed_one_entry le (by omega)]
  split <;> omega

/-! ### The commands -/

section Commands
variable {s : State}

theorem levelLegal_iff {p : Params} {l : Nat} : levelLegal p l = true ↔ l ≤ 8 ∧ coefPresent p l = true := by
  rw [levelLegal, Bool.and_eq_true, decide_eq_true_iff]

theorem exec_rsInit_raises {l : Nat} (clear : s.err = 0) (illegal : 8 < l ∨ coefPresent s.params l = false) :
    exec (.rsInit l) s = raise .unsupportedCorrectionLevel s := by
  have absent : ¬ levelLegal s.params l = true := fun legal => by
    obtain ⟨le, present⟩ := levelLegal_iff.mp legal
    exact illegal.elim le.not_gt (by simp [present])
  show execRsInit l s = _
  rw [execRsInit, unlessRefused_of_clear clear, if_neg absent]

theorem exec_rsFeed_unselected (clear : s.err = 0) (unselected : s.rs.valid = false) (d : Nat) :
    exec (.rsFeed d) s = raise .sequenceError s := by
  show execRsFeed d s = _
  rw [execRsFeed, unlessRefused_of_clear clear, if_neg (by simp [unselected])]

theorem exec_rsFeed_raises {d : Nat} (clear : s.err = 0) (valid : s.rs.valid = true) (illegal : 928 < d) :
    exec (.rsFeed d) s = raise .operandRange s := by
  show execRsFeed d s = _
  rw [execRsFeed, unlessRefused_of_clear clear, if_pos valid, if_neg (by simp [codewordLegal, illegal])]

theorem exec_rsRdout_unselected (clear : s.err = 0) (unselected : s.rs.valid = false) (i : Nat) :
    exec (.rsRdout i) s = raise .sequenceError s := by
  show execRsRdout i s = _
  rw [execRsRdout, unlessRefused_of_clear clear, if_neg (by simp [unselected])]

theorem exec_rsRdout_raises {i : Nat} (clear : s.err = 0) (valid : s.rs.valid = true) (illegal : s.rs.k ≤ i) :
    exec (.rsRdout i) s = raise .operandRange s := by
  show execRsRdout i s = _
  rw [execRsRdout, unlessRefused_of_clear clear, if_pos valid, if_neg (by simp [outputIndexLegal, illegal])]

end Commands

theorem level_wellFormed {l : Nat} (le : l ≤ 8) : (Instr.rsInit l).WellFormed :=
  decide_eq_true (show l < 2 ^ 4 by omega)

theorem position_wellFormed {l i : Nat} (le : l ≤ 8) (hi : i < Config.corrections l) :
    (Instr.rsRdout i).WellFormed :=
  decide_eq_true (show i < 2 ^ 9 from hi.trans_le (corrections_le le))

theorem zext24_eq_ofNat {n : Nat} (v : BitVec n) : zext24 v = BitVec.ofNat 24 v.toNat :=
  (BitVec.ofNat_toNat 24 v).symm

/-! ### Runs over a data block -/

/-- One command that writes the RS unit at most and raises nothing. -/
theorem leads_of_rs {s : State} {i : Instr} {rs : RsUnit} {valid : Bool} {value : Value}
    (idle : s.port.phase = .idle) (clear : s.err = 0) (hi : i.WellFormed)
    (run : exec i s = .next (State.answer { s with rs := rs } valid value)) :
    Leads s [i] [responseWord 0 valid value] (takeResponse (State.answer { s with rs := rs } valid value)) where
  run rest := runCommands_step rest idle hi run
  observed := by simp [clear]
  length := rfl

/-- The port is idle, no error is latched, and the unit has absorbed `data` at level `l` (R81, R82). -/
structure Absorbed (p : Params) (l : Nat) (data : List Nat) (s : State) : Prop where
  le : l ≤ 8
  idle : s.port.phase = .idle
  clear : s.err = 0
  params : s.params = p
  valid : s.rs.valid = true
  level : s.rs.level.toNat = l
  acc : s.rs.acc = absorbed p l data

/-- The commands of a data block at level `l`: feeds of codewords and reads of positions below `K` (R85). -/
def IsBlockCommand (l : Nat) (i : Instr) : Prop :=
  (∃ d, i = .rsFeed d ∧ d ≤ 928) ∨ ∃ n, i = .rsRdout n ∧ n < Config.corrections l

theorem fedCodewords_append (is js : List Instr) : fedCodewords (is ++ js) = fedCodewords is ++ fedCodewords js :=
  List.filterMap_append

/-- R81: `RS_INIT` begins an empty data block. -/
theorem leads_rsInit {s : State} {l : Nat} (idle : s.port.phase = .idle) (clear : s.err = 0) (le : l ≤ 8)
    (present : coefPresent s.params l = true) :
    ∃ t, Leads s [.rsInit l] [responseWord 0 true (BitVec.ofNat 24 (Config.corrections l))] t ∧
      Absorbed s.params l [] t := by
  have started := execRsInit_of_legal s clear (levelLegal_iff.mpr ⟨le, present⟩)
  have level : (BitVec.ofNat 4 l).toNat = l := by rw [BitVec.toNat_ofNat]; omega
  exact ⟨_, leads_of_rs idle clear (level_wellFormed le) started, le, rfl, clear, rfl, rfl, level, rfl⟩

section Block
variable {s : State} {p : Params} {l : Nat} {data : List Nat}

theorem Absorbed.k (h : Absorbed p l data s) : s.rs.k = Config.corrections l := by rw [RsUnit.k, h.level]

/-- `Absorbed` does not see the host's line. -/
theorem Absorbed.withLine (h : Absorbed p l data s) (line : List HostEvent) :
    Absorbed p l data { s with line := line } := ⟨h.le, h.idle, h.clear, h.params, h.valid, h.level, h.acc⟩

theorem Absorbed.exec_rsRdout (h : Absorbed p l data s) {i : Nat} (hi : i < Config.corrections l) :
    exec (.rsRdout i) s = .next (s.answer true (zext24 (correction p l data i))) := by
  have read := execRsRdout_of_legal s h.clear h.valid (decide_eq_true (h.k ▸ hi))
  rwa [RsUnit.output, h.k, h.acc] at read

theorem Absorbed.feed (h : Absorbed p l data s) {d : Nat} (hd : d ≤ 928) :
    ∃ t, Leads s [.rsFeed d] [responseWord 0 false 0] t ∧ Absorbed p l (data ++ [d]) t := by
  have fed := execRsFeed_of_legal s h.clear h.valid (decide_eq_true hd)
  refine ⟨_, leads_of_rs h.idle h.clear (codeword_wellFormed hd) fed, h.le, rfl, h.clear, h.params, h.valid,
    h.level, ?_⟩
  show rsStep s.params s.rs.level.toNat d s.rs.acc = _
  rw [h.params, h.level, h.acc, absorbed_concat]

/-- R85: a read does not end the block. -/
theorem Absorbed.read (h : Absorbed p l data s) {i : Nat} (hi : i < Config.corrections l) :
    ∃ t, Leads s [.rsRdout i] [responseWord 0 true (zext24 (correction p l data i))] t ∧ Absorbed p l data t :=
  ⟨_, leads_of_rs (rs := s.rs) h.idle h.clear (position_wellFormed h.le hi) (h.exec_rsRdout hi), h.le, rfl, h.clear,
    h.params, h.valid, h.level, h.acc⟩

theorem Absorbed.reads (h : Absorbed p l data s) (is : List Nat) (his : ∀ i ∈ is, i < Config.corrections l) :
    ∃ t, Leads s (is.map Instr.rsRdout) (is.map fun i => responseWord 0 true (zext24 (correction p l data i))) t ∧
      Absorbed p l data t := by
  induction is generalizing s with
  | nil => exact ⟨s, .refl s, h⟩
  | cons i is ih =>
    obtain ⟨hi, his⟩ := List.forall_mem_cons.mp his
    obtain ⟨t, first, h'⟩ := h.read hi
    obtain ⟨u, later, h''⟩ := ih h' his
    exact ⟨u, first.trans later, h''⟩

/-- R82, R83: a data block's command absorbs what it feeds. -/
theorem Absorbed.command (h : Absorbed p l data s) {i : Instr} (hi : IsBlockCommand l i) :
    ∃ r t, Leads s [i] [r] t ∧ Absorbed p l (data ++ fedCodewords [i]) t := by
  obtain ⟨d, rfl, hd⟩ | ⟨n, rfl, hn⟩ := hi
  · exact ⟨_, h.feed hd⟩
  · obtain ⟨t, run, h'⟩ := h.read hn
    exact ⟨_, t, run, (List.append_nil data).symm ▸ h'⟩

/-- R85: a list of feeds and reads absorbs the codewords fed. -/
theorem Absorbed.commands (h : Absorbed p l data s) (is : List Instr) (his : ∀ i ∈ is, IsBlockCommand l i) :
    ∃ rs t, Leads s is rs t ∧ Absorbed p l (data ++ fedCodewords is) t := by
  induction is generalizing s data with
  | nil => exact ⟨[], s, .refl s, (List.append_nil data).symm ▸ h⟩
  | cons i is ih =>
    obtain ⟨hi, his⟩ := List.forall_mem_cons.mp his
    obtain ⟨r, t, first, h'⟩ := h.command hi
    obtain ⟨rs, u, later, h''⟩ := ih h' his
    rw [List.append_assoc, ← fedCodewords_append] at h''
    exact ⟨_, u, first.trans later, h''⟩

end Block

/-- A data block from its `RS_INIT` on. -/
theorem leads_block {s : State} {l : Nat} (idle : s.port.phase = .idle) (clear : s.err = 0) (le : l ≤ 8)
    (present : coefPresent s.params l = true) (body : List Instr) (hbody : ∀ i ∈ body, IsBlockCommand l i) :
    ∃ rs t, Leads s (.rsInit l :: body) rs t ∧ Absorbed s.params l (fedCodewords body) t := by
  obtain ⟨t, started, begun⟩ := leads_rsInit idle clear le present
  obtain ⟨rs, u, run, h⟩ := begun.commands body hbody
  exact ⟨_, u, started.trans run, h⟩

/-- A data block of the one codeword 1, with its responses. -/
theorem leads_one {s : State} {l : Nat} (idle : s.port.phase = .idle) (clear : s.err = 0) (le : l ≤ 8)
    (present : coefPresent s.params l = true) :
    ∃ t, Leads s [.rsInit l, .rsFeed 1]
        [responseWord 0 true (BitVec.ofNat 24 (Config.corrections l)), responseWord 0 false 0] t ∧
      Absorbed s.params l [1] t := by
  obtain ⟨t, started, begun⟩ := leads_rsInit idle clear le present
  obtain ⟨u, fed, h⟩ := begun.feed (d := 1) (by decide)
  exact ⟨u, started.trans fed, h⟩

/-! ### The statements -/

/-- Settles O34: the feeds and reads absorb the codewords fed (`leads_block`), the last reads answer the outputs
(`Absorbed.reads`), and those are the source's sequence (`sourceCorrections_eq`). -/
theorem rsUnitComputesSourceCorrections : Obligations.RsUnitComputesSourceCorrections := by
  intro s l body idle clear le present hbody
  obtain ⟨before, t, fed, h⟩ := leads_block idle clear le present body hbody
  obtain ⟨u, read, -⟩ := h.reads (List.range (Config.corrections l)) fun i => List.mem_range.mp
  have run := fed.trans read
  refine ⟨_, before, _, run.finish, run.observed.trans (List.append_assoc ..).symm, fed.length, ?_⟩
  have source := sourceCorrections_eq le s.params (fedCodewords body)
  rw [Config.corrections] at source
  rw [source, List.map_map]
  exact List.map_congr_left fun i _ => congrArg (responseWord 0 true) (zext24_eq_ofNat _)

/-- Settles O30: the two forms of the command (`execRsInit_of_legal`, `exec_rsInit_raises`) and its refusal. -/
theorem rsInitSelectsLevel : Obligations.RsInitSelectsLevel := by
  refine ⟨fun w _ => decode_iff_masked_field rowRsInit (rowRsInit_hits w) .rfl,
    fun s l clear le present => execRsInit_of_legal s clear (levelLegal_iff.mpr ⟨le, present⟩),
    fun s l clear illegal => (exec_rsInit_raises clear illegal).trans (raise_eq _ s),
    fun s l latched => unlessRefused_of_latched latched _, fun s clear present => ?_,
    fun l le => (by decide : ∀ l < 9, coefPresent defaultParams l = true) l (Nat.lt_succ_of_le le)⟩
  refine ⟨_, execRsInit_of_legal s clear (levelLegal_iff.mpr ⟨by decide, present⟩), ?_⟩
  rw [answer_ready, clear]
  decide

/-- Settles O33: the loop is a fold (`rsLoop_eq_foldl`), and each entry it leaves is computed from the entries before
the step (`rsStep_entry_toNat`). -/
theorem rsStepIsSimultaneousUpdate : Obligations.RsStepIsSimultaneousUpdate := by
  refine ⟨fun p l d acc _ => rsLoop_eq_foldl _ _ _ acc, fun p l d acc j le hj => ?_, fun d top a hd htop ha => ?_⟩
  · have entry := rsStep_entry_toNat p d acc le hj
    exact ⟨entry, entry.trans_le (reducedEntry_le _ _ _)⟩
  · have t : (d + top) % 929 ≤ 928 := Nat.le_of_lt_succ (Nat.mod_lt _ (by decide))
    exact ⟨Nat.add_le_add hd htop, Nat.mul_le_mul t ha, by decide⟩

/-- The coefficients that the examples of R82 and R83 name. -/
theorem coefAt_of_example {p : Params} (h : p.coef[0] = [27, 917]) : coefAt p 0 0 = 27 ∧ coefAt p 0 1 = 917 := by
  simp [coefAt, h]

theorem correction_of_example {p : Params} (h : p.coef[0] = [27, 917]) :
    correction p 0 [1] 0 = 917 ∧ correction p 0 [1] 1 = 27 := by
  obtain ⟨coef0, coef1⟩ := coefAt_of_example h
  have small0 : (coefAt p 0 0).toNat ≤ 928 := by rw [coef0]; decide
  have small1 : (coefAt p 0 1).toNat ≤ 928 := by rw [coef1]; decide
  exact ⟨(correction_one (by decide) (by decide) p small1).trans coef1,
    (correction_one (by decide) (by decide) p small0).trans coef0⟩

/-- Settles O31: the forms of the command, the entries it does not write (`rsStep_entry_beyond`) and the shift
(`rsStep_entry_shift`); the example feeds one 1 (`leads_one`, `absorbed_one_entry`). -/
theorem rsFeedAbsorbsCodeword : Obligations.RsFeedAbsorbsCodeword := by
  refine ⟨fun w _ => decode_iff_masked_field rowRsFeed (rowRsFeed_hits w) .rfl,
    fun s d clear unselected => (exec_rsFeed_unselected clear unselected d).trans (raise_eq _ s),
    fun s d clear valid illegal => (exec_rsFeed_raises clear valid illegal).trans (raise_eq _ s),
    fun s d clear valid legal => execRsFeed_of_legal s clear valid (decide_eq_true legal),
    fun s d latched => unlessRefused_of_latched latched _,
    fun p l d acc j beyond => rsStep_entry_beyond p d acc beyond,
    fun p l d acc j le entries zero hj => rsStep_entry_shift p d acc le entries hj zero,
    fun s clear coef present idle => ?_⟩
  obtain ⟨coef0, coef1⟩ := coefAt_of_example coef
  obtain ⟨t, run, h⟩ := leads_one idle clear (by decide) present
  refine ⟨_, run.finish, run.observed, BitVec.eq_of_toNat_eq ?_, BitVec.eq_of_toNat_eq ?_⟩
  · rw [h.acc, absorbed_one_entry h.le (by decide), coef0]
    decide
  · rw [h.acc, absorbed_one_entry h.le (by decide), coef1]
    decide

/-- Settles O32: the forms of the command, with the value `neg929_toNat`; the example reads what feeding one 1 leaves
(`leads_one`, `correction_one`). -/
theorem rsRdoutReadsNegatedReversed : Obligations.RsRdoutReadsNegatedReversed := by
  refine ⟨fun w _ => decode_iff_masked_field rowRsRdout (rowRsRdout_hits w) .rfl,
    fun s i clear unselected => (exec_rsRdout_unselected clear unselected i).trans (raise_eq _ s),
    fun s i clear valid illegal => (exec_rsRdout_raises clear valid illegal).trans (raise_eq _ s),
    fun s i clear valid legal => ⟨_, execRsRdout_of_legal s clear valid (decide_eq_true legal), fun small => ?_⟩,
    fun s i latched => unlessRefused_of_latched latched _, fun s clear coef present idle => ?_⟩
  · rw [zext24, BitVec.toNat_setWidth_of_le (by decide)]
    have value := neg929_toNat small
    refine ⟨value, value.trans_le ?_⟩
    split <;> omega
  · obtain ⟨first, second⟩ := correction_of_example coef
    obtain ⟨t, fed, h⟩ := leads_one idle clear (by decide) present
    obtain ⟨u, read, -⟩ := h.reads [0, 1] (by decide)
    have run := fed.trans read
    refine ⟨_, run.finish, run.observed.trans ?_⟩
    simp only [List.map_cons, List.map_nil, first, second]
    rfl

/-- Settles O35: after the feeds (`leads_block`) a position below `K` reads and one from `K` up raises. -/
theorem correctionOutputLength : Obligations.CorrectionOutputLength := by
  intro s l ds idle clear le present legal
  obtain ⟨rs, t, run, h⟩ := leads_block idle clear le present (ds.map Instr.rsFeed) fun i hi => by
    obtain ⟨d, hd, rfl⟩ := List.mem_map.mp hi
    exact .inl ⟨d, rfl, legal d hd⟩
  have h' := h.withLine []
  refine ⟨_, run.finish, h.clear, fun i hi => ⟨_, h'.exec_rsRdout hi⟩, fun i beyond => ?_⟩
  exact (exec_rsRdout_raises h'.clear h'.valid (h'.k.trans_le beyond)).trans (raise_eq _ _)

/-- Settles O36: the outputs after feeding one 1 (`leads_one`) are the coefficients reversed (`correction_one`). -/
theorem singleOneReadsCoefficientsReversed : Obligations.SingleOneReadsCoefficientsReversed := by
  intro s l idle clear le present params
  obtain ⟨t, run, h⟩ := leads_one idle clear le present
  refine ⟨_, run.finish, fun i hi => ?_⟩
  rw [(h.withLine []).exec_rsRdout hi, correction_one le hi _ (params.coefRange _ _)]
  rfl

end Sys2Proof.Machine

/-! Exceptions (spec/60_exceptions.md): the dispatch of a word, refusal while an error is latched, raising, the order
of the checks, and the ways back to `ERR = 0`. -/

namespace Sys2Proof.Machine

/-! ### Refusal and the latched error -/

/-- R119: what a refused command does. -/
theorem exec_refused {i : Instr} {s : State} (latched : s.err ≠ 0) (refusable : isExempt i = false) :
    exec i s = .next (s.answer false 0) := by
  cases i with
  | nop | srst | rdreg => cases refusable
  | _ => exact unlessRefused_of_latched latched _

/-- R119: all commands but the three are refused. -/
theorem isExempt_eq_false {i : Instr} (nop : i ≠ .nop) (srst : i ≠ .srst) (rdreg : ∀ idx, i ≠ .rdreg idx) :
    isExempt i = false := by
  cases i with
  | nop => exact absurd rfl nop
  | srst => exact absurd rfl srst
  | rdreg idx => exact absurd rfl (rdreg idx)
  | _ => rfl

/-- R123: while an error is latched no word but SRST's changes the record. -/
theorem runWord_keeps_arch {w : Word} {s t : State} (latched : s.err ≠ 0) (hw : decode w ≠ .command .srst)
    (h : runWord w s = .next t) : t.arch = s.arch := by
  have ends := runWord_ends hw s
  rw [h] at ends
  cases ends with
  | answered rs txt b900 valid value kept =>
    obtain ⟨hrs, htxt, hb900⟩ := kept latched
    exact arch_ext rfl hrs htxt hb900
  | raised _ clear => exact absurd clear latched

/-- R118: a word but SRST's that changes `ERR` raised. -/
theorem runWord_raises {w : Word} {s t : State} (hw : decode w ≠ .command .srst) (h : runWord w s = .next t)
    (changed : t.err ≠ s.err) : s.err = 0 ∧ ∃ e : ErrorCode, t = State.answer { s with err := e.code } false 0 := by
  have ends := runWord_ends hw s
  rw [h] at ends
  cases ends with
  | answered => exact absurd rfl changed
  | raised e clear => exact ⟨clear, e, rfl⟩

/-- R118, R52: the response of a command that ends with an error latched. -/
theorem responseErrf_of_latched {err : BitVec 4} (latched : err ≠ 0) (valid : Bool) (value : Value) :
    responseErrf (responseWord err valid value) = true := by
  rw [responseErrf_responseWord, errFlag_eq_decide, decide_eq_true latched]

/-! ### What a word reads -/

/-- States with the same record and parameters differ in the port and the bookkeeping only. -/
theorem eq_book_of_arch {s₁ s₂ : State} (arch : s₁.arch = s₂.arch) (params : s₁.params = s₂.params) :
    s₂ = s₁.book s₂.port s₂.index s₂.observed s₂.line s₂.freeCount := by
  obtain ⟨err, rs, txt, b900⟩ := Arch.mk.inj arch
  rw [State.book, err, rs, txt, b900, params]

/-- R117: what a word does to the record, and its response, depend on the record, the word and the parameters. -/
theorem runWord_determined (w : Word) {s₁ s₂ : State} (arch : s₁.arch = s₂.arch) (params : s₁.params = s₂.params) :
    ∃ t₁ t₂, runWord w s₁ = .next t₁ ∧ runWord w s₂ = .next t₂ ∧ t₁.arch = t₂.arch ∧
      readyResponse t₁ = readyResponse t₂ := by
  obtain ⟨t, ht⟩ := runWord_total w s₁
  rw [eq_book_of_arch arch params]
  exact ⟨t, _, ht, runWord_book s₁ _ _ _ _ _ ht, rfl, rfl⟩

/-! ### Steps without a hardware reset -/

/-- R128: with nothing on the host's line an idle port holds its state. -/
theorem step_of_empty {s : State} (idle : s.port.phase = .idle) (hl : s.line = []) : step s = .next s := by
  simp only [step, transact, hl, idle]

theorem step_of_busy {s : State} {w : Word} {left : Nat} (noReset : ∀ rest, s.line ≠ .hardReset :: rest)
    (busy : s.port.phase = .busy w left) : step s = deliver (runWord w s) := by
  unfold step transact
  split
  · next rest hl => exact absurd hl (noReset rest)
  · simp only [busy]

theorem step_of_done {s : State} {r : Word} (noReset : ∀ rest, s.line ≠ .hardReset :: rest)
    (done : s.port.phase = .done r) : step s = .next (takeResponse s) := by
  unfold step transact
  split
  · next rest hl => exact absurd hl (noReset rest)
  · simp only [done]

/-- R128: an edge without an offer at a port where none was noted. -/
theorem noteOffer_of_fresh {s : State} {p : Pins} (port : s.port = Port.reset) (hv : p.cmdValid = false) :
    noteOffer p s = s := by
  have nothingNoted : ⟨s.port.phase, []⟩ = s.port := by rw [port]; rfl
  rw [noteOffer, hv, if_neg Bool.false_ne_true, nothingNoted]

/-! ### The way back from an error -/

/-- R137: all three units at their reset values. -/
def UnitsReset (t : State) : Prop :=
  t.rs = RsUnit.reset ∧ t.txt = Base30Unit.reset ∧ t.b900 = Base900Unit.reset

/-- R122: a word that clears `ERR`, its response taken, is SRST's, and it discarded all unit state. -/
theorem deliver_runWord_clears {w : Word} {s t : State} (latched : s.err ≠ 0)
    (h : deliver (runWord w s) = .next t) (clear : t.err = 0) : decode w = .command .srst ∧ UnitsReset t := by
  obtain ⟨u, hu⟩ := runWord_total w s
  rw [hu, deliver_next] at h
  cases h
  rw [takeResponse_err] at clear
  have srst : decode w = .command .srst := by
    by_contra hw
    have err := congrArg Arch.err (runWord_keeps_arch latched hw hu)
    exact latched (err.symm.trans clear)
  cases (runWord_command srst s ▸ hu).symm.trans (exec_srst s)
  exact ⟨srst, rfl, rfl, rfl⟩

/-- R144, I6: the word accepted is one of the words offered. -/
theorem acceptedWord_mem (w : Word) (later : List Word) (s : State) : acceptedWord w later s ∈ w :: later := by
  unfold acceptedWord
  split
  · exact List.mem_cons_self
  · have offered : Config.offeredChoice s.freeCount % (later.length + 1) < (w :: later).length :=
      Nat.mod_lt _ (Nat.succ_pos _)
    rw [List.getElem?_eq_getElem offered, Option.getD_some]
    exact List.getElem_mem offered

/-- The step from `s` ran the word `w` in the state `s'`: the word in flight, the command at the head of the host's
line, or the one accepted of the words offered there. -/
def RanWord (s : State) (w : Word) (s' : State) : Prop :=
  (∃ left, s.port.phase = .busy w left ∧ s' = s) ∨
  (∃ rest, s.port.phase = .idle ∧ s.line = .command w :: rest ∧ s' = { s with line := rest }) ∨
  (∃ (first : Word) (later : List Word) (rest : List HostEvent) (n : Nat),
    s.port.phase = .idle ∧ s.line = .unstable first later :: rest ∧ w ∈ first :: later ∧
    w = acceptedWord first later { s with line := rest } ∧
    s' = { s with line := rest, freeCount := n })

/-- Up to its run, a word's transaction changes the bookkeeping only. -/
theorem RanWord.arch {s s' : State} {w : Word} (h : RanWord s w s') : s'.arch = s.arch := by
  obtain ⟨_, _, rfl⟩ | ⟨_, _, _, rfl⟩ | ⟨_, _, _, _, _, _, _, _, rfl⟩ := h <;> rfl

/-- What one transaction is: a hardware reset, a word run and its response taken, or no change to the record. -/
inductive Transaction (s : State) : Prop where
  | reset (rest : List HostEvent) (head : s.line = .hardReset :: rest)
      (eq : step s = .next (hardReset { s with line := rest }))
  | ran (w : Word) (s' : State) (word : RanWord s w s')
      (eq : step s = deliver (runWord w s'))
  | held (t : State) (eq : step s = .next t) (same : t.arch = s.arch)

/-- R10: the transaction of a step at an idle port. -/
theorem transaction_of_idle {s : State} (idle : s.port.phase = .idle) : Transaction s := by
  cases hl : s.line with
  | nil => exact .held s (step_of_empty idle hl) rfl
  | cons e rest =>
    have eq := step_of_event idle hl
    cases e with
    | command w => exact .ran w _ (.inr (.inl ⟨rest, idle, hl, rfl⟩)) eq
    | unstable first later =>
      obtain ⟨n, hn⟩ := afterChoice_eq { s with line := rest } first later
      rw [hostEvent, hn] at eq
      exact .ran _ _ (.inr (.inr ⟨first, later, rest, n, idle, hl, acceptedWord_mem _ _ _, rfl, rfl⟩)) eq
    | withdrawn w => exact .held _ eq rfl
    | hardReset => exact .reset rest hl eq

/-- R10: the transaction of any step. -/
theorem transaction (s : State) : Transaction s := by
  by_cases head : ∃ rest, s.line = .hardReset :: rest
  · obtain ⟨rest, hl⟩ := head
    exact .reset rest hl (by simp only [step, transact, hl])
  · cases hp : s.port.phase with
    | idle => exact transaction_of_idle hp
    | busy w left => exact .ran w s (.inl ⟨left, hp, rfl⟩) (step_of_busy (not_exists.mp head) hp)
    | done r => exact .held _ (step_of_done (not_exists.mp head) hp) (takeResponse_arch s)

/-! ### The statements -/

/-- Settles O55: with nothing on the line a step holds the state, and at a fresh port there is no offer to forget. -/
theorem idleBlockHoldsState : Obligations.IdleBlockHoldsState := by
  refine ⟨fun s idle hl => step_of_empty idle hl, fun s p port hr hv => ?_⟩
  rw [clockEdge_of_idle hr (by rw [port, portReset_phase]), if_neg (by simp [hv]), noteOffer_of_fresh port hv]

/-- Settles O9: an illegal word is `raiseIfClear`, refusal is `exec_refused`, and what a word reads is
`runWord_determined`. -/
theorem dispatchIsTheStepFunction : Obligations.DispatchIsTheStepFunction := by
  refine ⟨fun w s why illegal => runWord_illegal illegal s, fun w s i hd latched nop srst rdreg => ?_,
    fun w s i hd _ => runWord_command hd s, fun w s₁ s₂ => runWord_determined w⟩
  rw [runWord_command hd, exec_refused latched (isExempt_eq_false nop srst rdreg), respond_eq]

/-- Settles O11: refusal is `exec_refused`; of the exempt commands NOP and RDREG answer and SRST answers from the reset
state (`exec_srst`). -/
theorem refusalChangesNothing : Obligations.RefusalChangesNothing := by
  refine ⟨fun i s latched nop srst rdreg => ?_, respond_eq false 0, fun _ _ _ => exec_rdreg_mapped,
    fun s => ⟨_, exec_srst s, rfl⟩⟩
  exact ⟨exec_refused latched (isExempt_eq_false nop srst rdreg), answer_arch s false 0, answer_err s false 0,
    responseErrf_of_latched latched false 0⟩

/-- Settles O12: the response's fields are those of `responseWord`, and a word that changes `ERR` raised
(`runWord_raises`). -/
theorem raiseWritesErrAndNothingElse : Obligations.RaiseWritesErrAndNothingElse := by
  refine ⟨fun e s => ?_, rfl, rfl, rfl, rfl, fun w s t h changed hw => runWord_raises hw h changed⟩
  exact ⟨raise_eq e s, responseErrf_of_latched (code_ne_zero e) false 0, responseValid_responseWord e.code false 0,
    responseWord_err e.code false 0⟩

/-- Settles O13: the whole record is kept (`runWord_keeps_arch`), `ERR` with it. -/
theorem firstErrorIsKept : Obligations.FirstErrorIsKept := by
  intro w s t latched hw h
  have arch := runWord_keeps_arch latched hw h
  exact ⟨congrArg Arch.err arch, arch⟩

/-- Settles O14: one lemma per check, each with the checks before it as hypotheses. -/
theorem errorPriorityOrder : Obligations.ErrorPriorityOrder := by
  refine ⟨fun w why s illegal => runWord_illegal illegal s, fun i s => exec_refused,
    fun d s clear unselected => exec_rsFeed_unselected clear unselected d,
    fun i s clear unselected => exec_rsRdout_unselected clear unselected i,
    fun d s => exec_rsFeed_raises, fun i s => exec_rsRdout_raises, fun l s => exec_rsInit_raises,
    fun v s => exec_txtPush_raises, fun idx s clear unmapped => ?_⟩
  rw [exec_rdreg_unmapped (regmap_unmapped s unmapped), raiseIfClear_of_clear clear, raise_eq]

/-- Settles O15: of the three kinds of transaction, one that holds the record keeps `ERR`, and a word that clears it
is SRST's (`deliver_runWord_clears`). -/
theorem errorIsClearedByResetOnly : Obligations.ErrorIsClearedByResetOnly := by
  intro s t latched h clear
  cases transaction s with
  | reset rest head eq =>
    cases eq.symm.trans h
    exact ⟨rfl, rfl, rfl, .inl ⟨rest, head, eq⟩⟩
  | ran w s' word eq =>
    have latched' : s'.err ≠ 0 := fun e => latched ((congrArg Arch.err word.arch).symm.trans e)
    obtain ⟨srst, rs, txt, b900⟩ := deliver_runWord_clears latched' (eq.symm.trans h) clear
    exact ⟨rs, txt, b900, .inr ⟨w, s', srst, eq, word⟩⟩
  | held u eq same =>
    cases eq.symm.trans h
    exact absurd ((congrArg Arch.err same).symm.trans clear) latched

end Sys2Proof.Machine

/-! Resets and hazards (spec/70_reset_and_hazards.md): what a run observes (R146), the word accepted of those offered
(R144), the two resets (R136 to R139) and the latency (R142). -/

namespace Sys2Proof.Machine

/-! ### What a run observes -/

/-- R52: a response with `ERRF = 0` was made with no error latched. -/
theorem err_of_responseErrf {err : BitVec 4} {valid : Bool} {value : Value}
    (h : responseErrf (responseWord err valid value) = false) : err = 0 := by
  by_contra latched
  exact absurd (h.symm.trans (responseErrf_of_latched latched valid value)) Bool.false_ne_true

/-- R33, R12: a word runs, and once its response is taken the port is idle again, the response has joined the
observation, and it told whether an error is latched. -/
theorem runWord_taken (w : Word) (s : State) :
    ∃ u r, runWord w s = .next u ∧ (takeResponse u).port.phase = .idle ∧
      (takeResponse u).observed = s.observed ++ [r] ∧ (takeResponse u).index = s.index + 1 ∧
      (responseErrf r = false → (takeResponse u).err = 0) := by
  obtain ⟨err, rs, txt, b900, valid, value, answers⟩ := runWord_answers w s
  exact ⟨_, responseWord err valid value, answers, rfl, rfl, rfl, err_of_responseErrf⟩

/-- The run of the words `ws` from `s` ends in `t`, the host having taken the responses `rs` (R146, R12). -/
structure Observes (s : State) (ws rs : List Word) (t : State) : Prop where
  run : runWords ws s = .next t
  observed : t.observed = s.observed ++ rs
  length : rs.length = ws.length
  index : t.index = s.index + ws.length
  idle : t.port.phase = .idle
  line : t.line = []
  clear : s.err = 0 → succeeded rs → t.err = 0
  initial : ∀ k, ∃ u, runWords (ws.take k) s = .next u ∧ u.observed = s.observed ++ rs.take k

theorem Observes.nil {s : State} (idle : s.port.phase = .idle) : Observes s [] [] { s with line := [] } where
  run := runWords_nil s
  observed := (List.append_nil _).symm
  length := rfl
  index := rfl
  idle := idle
  line := rfl
  clear h _ := h
  initial k := ⟨_, by rw [List.take_nil, runWords_nil], by rw [List.take_nil, List.append_nil]⟩

/-- The run from the state in which the response `r` to the first word has been taken, and that word before it. -/
theorem Observes.cons {s s' t : State} {w r : Word} {ws rs : List Word} (h : Observes s' ws rs t)
    (first : ∀ ws, runWords (w :: ws) s = runWords ws s') (observed : s'.observed = s.observed ++ [r])
    (index : s'.index = s.index + 1) (clear : responseErrf r = false → s'.err = 0) :
    Observes s (w :: ws) (r :: rs) t where
  run := (first ws).trans h.run
  observed := by rw [h.observed, observed, List.append_assoc, List.singleton_append]
  length := congrArg (· + 1) h.length
  index := by rw [h.index, index, List.length_cons]; omega
  idle := h.idle
  line := h.line
  clear _ success := by
    obtain ⟨hr, hrs⟩ := List.forall_mem_cons.mp success
    exact h.clear (clear hr) hrs
  initial
    | 0 => ⟨_, runWords_nil s, (List.append_nil _).symm⟩
    | k + 1 => by
      obtain ⟨u, run, hu⟩ := h.initial k
      refine ⟨u, (first _).trans run, ?_⟩
      rw [hu, observed, List.append_assoc, List.singleton_append, List.take_succ_cons]

/-- R146: from an idle port every list of words has its run. -/
theorem exists_observes (ws : List Word) {s : State} (idle : s.port.phase = .idle) :
    ∃ rs t, Observes s ws rs t := by
  induction ws generalizing s with
  | nil => exact ⟨[], _, .nil idle⟩
  | cons w ws ih =>
    obtain ⟨u, r, run, taken, observed, index, clear⟩ := runWord_taken w s
    obtain ⟨rs, t, h⟩ := ih taken
    exact ⟨r :: rs, t, h.cons (fun ws => runWords_cons ws idle run) observed index clear⟩

/-- Settles O54: by induction on the words, with what the first `k` words alone observe (`exists_observes`). -/
theorem runObservesOneResponsePerCommand : Obligations.RunObservesOneResponsePerCommand := by
  intro s ws idle
  obtain ⟨rs, t, h⟩ := exists_observes ws idle
  exact ⟨t, rs, h.run, h.observed, h.length, h.index, h.idle, h.line, h.clear, fun k _ => h.initial k⟩

/-! ### The word accepted -/

/-- R144: a word kept stable is accepted, and no choice is made. -/
theorem acceptedWord_of_stable {w : Word} {later : List Word} (stable : ∀ x ∈ later, x = w) (s : State) :
    acceptedWord w later s = w ∧ afterChoice w later s = s := by
  have all : later.all (· == w) = true := List.all_eq_true.mpr fun x hx => beq_iff_eq.mpr (stable x hx)
  exact ⟨if_pos all, if_pos all⟩

/-- R144: the word accepted on an edge is one offered up to that edge. -/
theorem edgeWord_mem (p : Pins) (s : State) : edgeWord p s ∈ s.port.offered ++ [p.cmdData] := by
  unfold edgeWord
  split
  · exact List.mem_append_right _ List.mem_cons_self
  · next first later offered =>
    rw [offered]
    exact acceptedWord_mem _ _ s

/-- I7: an edge without `cmd_valid` at an idle port forgets the words offered. -/
theorem noteOffer_withdrawn {p : Pins} {s : State} (idle : s.port.phase = .idle) (hv : p.cmdValid = false) :
    (noteOffer p s).port = Port.reset := by
  simp only [noteOffer, hv, idle, Bool.false_eq_true, if_false, Port.reset]

/-- Settles O52: a step on changing words runs one of them (`acceptedWord_mem`) in a state in which only the counter of
choices may differ; an edge accepts one of the words noted and the one on `cmd_data` (`edgeWord_mem`). -/
theorem acceptedWordIsOneOffered : Obligations.AcceptedWordIsOneOffered := by
  refine ⟨fun s w later rest idle hl => ?_, fun s w later stable => acceptedWord_of_stable stable s,
    fun s w rest idle hl => step_of_event idle hl, fun s p idle hr hv => ?_, fun s p idle hr hv => ?_⟩
  · obtain ⟨n, choice⟩ := afterChoice_eq { s with line := rest } w later
    refine ⟨_, acceptedWord_mem w later { s with line := rest }, { s with line := rest, freeCount := n },
      rfl, rfl, rfl, rfl, rfl, rfl, ?_⟩
    rw [step_of_event idle hl, hostEvent, choice]
  · have edge := clockEdge_of_idle hr idle
    rw [if_neg (by simp [hv])] at edge
    exact ⟨_, edge, noteOffer_arch p s, noteOffer_withdrawn idle hv, noteOffer_observed p s⟩
  · have edge := clockEdge_of_idle hr idle
    obtain ⟨n, accept⟩ := acceptCommand_eq p s
    rw [if_pos hv, accept] at edge
    exact ⟨edgeWord p s, edgeWord_mem p s, _, edge, rfl, rfl, rfl, rfl⟩

/-! ### The reset state -/

/-- R137: the reset state is its own hardware reset, so that what holds after one holds of it. -/
theorem hardReset_reset : hardReset State.reset = State.reset := rfl

/-- R137: both resets leave the record of the reset state. -/
theorem toResetState_arch (s : State) : s.toResetState.arch = State.reset.arch := rfl

theorem hardReset_arch (s : State) : (hardReset s).arch = State.reset.arch := rfl

/-- R20: a coefficient is an entry of its level's list, or 0 outside the table. -/
theorem coefAt_le {p : Params} {bound : Nat}
    (h : ∀ l < 9, ((p.coef[l]?.getD []).all fun x => decide (x.toNat ≤ bound)) = true) (l j : Nat) :
    (coefAt p l j).toNat ≤ bound := by
  unfold coefAt
  cases entry : (p.coef[l]?.getD [])[j]? with
  | none => exact Nat.zero_le bound
  | some x =>
    by_cases hl : l < 9
    · exact of_decide_eq_true (List.all_eq_true.mp (h l hl) x (List.mem_of_getElem? entry))
    · simp [hl] at entry

theorem defaultCoef_le :
    ∀ l < 9, ((defaultParams.coef[l]?.getD []).all fun x => decide (x.toNat ≤ 928)) = true := by decide +kernel

theorem defaultParams_legal : LegalParams defaultParams where
  coefCount := by decide +kernel
  coefRange := coefAt_le defaultCoef_le
  shiftByte := by decide
  byte := by decide
  byte6 := by decide

/-- Settles O40: a hardware reset leaves a legal state, and the default table is checked entry by entry
(`defaultCoef_le`). -/
theorem resetStateIsLegal : Obligations.ResetStateIsLegal :=
  ⟨hardReset_reset ▸ hardReset_legal State.reset, defaultParams_legal⟩

/-- Settles O47: the reset state is a hardware reset of itself (`hardReset_reset`), and that writes every register. -/
theorem resetValues : Obligations.ResetValues := by
  intro s h
  obtain ⟨s₀, rfl⟩ : ∃ s₀, s = hardReset s₀ :=
    h.elim (fun atReset => ⟨State.reset, atReset.trans hardReset_reset.symm⟩) id
  exact ⟨rfl, rfl, rfl, rfl, fun _ => Vector.getElem_replicate, rfl, rfl, rfl, rfl, rfl,
    fun _ => Vector.getElem_replicate⟩

/-! ### The two resets as acts of the host -/

/-- Settles O48: SRST is a command, whose response is taken (`exec_srst`, `responseWord_clear`); a hardware reset is an
event without one. -/
theorem srstMatchesHardReset : Obligations.SrstMatchesHardReset := by
  intro s rest w idle srst
  have command := step_of_decoded (s := { s with line := .command w :: rest }) idle rfl srst
  have reset := step_of_event (s := { s with line := .hardReset :: rest }) idle rfl
  rw [exec_srst, deliver_next, takeResponse_answer, toResetState_err, responseWord_clear] at command
  exact ⟨_, _, command, reset, rfl, toResetState_arch s, rfl, rfl, rfl, rfl, rfl, rfl, rfl⟩

/-- R136: the outputs are low while `rst_n = 0`. -/
theorem port_outputs_of_reset {p : Pins} (hr : p.rstN = false) (s : State) :
    cmdReady p s = false ∧ rspValid p s = false := by
  simp [cmdReady, rspValid, hr]

theorem port_outputs_of_idle {s : State} (idle : s.port.phase = .idle) {q : Pins} (hq : q.rstN = true) :
    cmdReady q s = true ∧ rspValid q s = false := by
  simp [cmdReady, rspValid, idle, hq]

/-- Settles O49: the edge is `hardReset` (`clockEdge_of_reset`), which takes no response and leaves an idle port. -/
theorem hardwareResetDiscardsCommandInFlight : Obligations.HardwareResetDiscardsCommandInFlight := by
  intro p q s hp hq
  obtain ⟨ready, valid⟩ := port_outputs_of_reset hp s
  exact ⟨ready, valid, _, clockEdge_of_reset hp, hardReset_arch s, rfl, hardReset_observed s,
    port_outputs_of_idle rfl hq⟩

/-! ### Latency -/

/-- R142: only `RS_INIT` and `RS_FEED` are looked up at `RS_K`. -/
theorem latency_of_fixed {op : BitVec 8} (init : op ≠ 0x30) (feed : op ≠ 0x31) (p : Params) (k : Nat) :
    latency p op k = latency p op 0 := by
  simp only [latency, init, feed, or_self, if_false]

/-- Settles O53: the table adds to one cycle (`latency_pos`), an opcode without `RS_K` is looked up at 0
(`latency_of_fixed`), and the first row that matches decides. -/
theorem latencyAtLeastOneCycle : Obligations.LatencyAtLeastOneCycle := by
  refine ⟨latency_pos, fun p op k k' init feed => ?_, fun p op k n kDependent => ?_⟩
  · rw [latency_of_fixed init feed p k, latency_of_fixed init feed p k']
  · rw [latency, if_pos kDependent]
    simp [Nat.add_comm]

end Sys2Proof.Machine
